-- ==== Sys2Proof/Word.lean ====
section
/-! DEFINITION. The word types of the DV2020 model: bytes, the 8 B words of registers, descriptors and
directory entries, and the 32-bit words of FP32, INT32 and completion fields (R2, R115, R173, R445). -/

namespace Sys2Proof

/-- One byte of any of the address spaces (R253). -/
abbrev Byte := BitVec 8

/-- A 32-bit word: an FP32 or INT32 value, or a 4 B field. -/
abbrev Word32 := BitVec 32

/-- A 64-bit word: a register (R445), a scalar register (R110), a directory entry (R56). -/
abbrev Word64 := BitVec 64

end Sys2Proof
end

