-- ==== Sys2Proof/Syntax.lean ====
section
/-! DEFINITION. The commands of the DV2020: one constructor of `Instr` for each row of spec/opcode_table.json, with the
operands its rules give it. Operand types first. -/

namespace Sys2Proof

/-! ## Units and places -/

/-- A rod by frame, rod group and logical position (R121). -/
structure RodId where
  frame : Nat
  group : Nat
  pos : Nat
deriving DecidableEq, Repr

/-- A bead reference (R121). -/
structure BeadId where
  frame : Nat
  group : Nat
  pos : Nat
  bead : Nat
deriving DecidableEq, Repr

/-- The two DRAM tiers (R226, R229). -/
inductive Tier where
  | h | l
deriving DecidableEq, Repr

/-- A width class with a defined code (R176). -/
inductive WidthClass where
  | c16 | c8 | c4
deriving DecidableEq, Repr

/-- The two saggar bays (R8). -/
inductive Bay where
  | a | b
deriving DecidableEq, Repr

/-! ## Descriptors as read from host or device memory -/

/-- The eight 8 B words of a descriptor read (R296, R328). -/
structure RawDesc where
  w0 : Word64
  w1 : Word64
  w2 : Word64
  w3 : Word64
  w4 : Word64
  w5 : Word64
  w6 : Word64
  w7 : Word64
deriving DecidableEq, Repr

/-! ## What the sections whose layout Gaken owns hold (R31; log 8) -/

/-- A place that a mover program transfer names (R127). -/
inductive Loc where
  | scratch (b : BeadId) (off : Nat)
  | pool (r : RodId) (off : Nat)
  | device (va : Nat)
  | request (slot off : Nat)
  | output (slot off : Nat)
deriving DecidableEq, Repr

/-- One transfer of a mover program entry (R127). -/
structure Transfer where
  src : Loc
  dst : Loc
  len : Nat
deriving DecidableEq, Repr

/-- A mover program entry of a rod (R127); RELOAD entries run at entry (R114). -/
structure MoverProg where
  rod : RodId
  prog : Nat
  reload : Bool
  transfers : List Transfer
deriving DecidableEq, Repr

/-- A thread program: 64-bit instruction words, PASS_SPLIT and TIE_SPLIT, and the index of the first instruction at which the
CARRY_OPS section has it issue carry operations, if it issues any (R81, R111, R115, R192, R194, R212). -/
structure Thread where
  bead : BeadId
  ctx : Nat
  words : List Word64
  passSplit : Option Nat
  tieSplit : Option Nat
  carryFrom : Option Nat
deriving DecidableEq, Repr

/-- What the STEP_PROGRAM section defines for a bead: its event counters and its scratch ranges (offset, length) (R116). -/
structure BeadDef where
  bead : BeadId
  counters : BitVec 32
  ranges : List (Nat × Nat)
deriving DecidableEq, Repr

/-- A list of the gather plan (R31, R59, R482): the table (with the ROW_ELEMENTS and ALLOWED that Gaken compiled against) and shard
whose indices it takes, its ROUTE entry, destinations, FIRST_POS and done counter, the batch slot it draws from (none: every
slot), and whether run-ahead may serve it (R76). -/
structure PlanList where
  table : Nat
  rowElements : Nat
  allowed : BitVec 8
  shard : Nat
  route : Nat
  perBead : Nat
  destOffset : Nat
  destStride : Nat
  firstPos : Nat
  counter : Nat
  slot : Option Nat
  runAhead : Bool
deriving DecidableEq, Repr

/-- What a PLACEMENT region is (R31). -/
inductive RegionKind where
  | buffer | shard | weight | history | slotTable
deriving DecidableEq, Repr

/-- A region of the PLACEMENT section (R31, R50). -/
structure Region where
  kind : RegionKind
  va : Nat
  bytes : Nat
  frame : Nat
  tier : Tier
  table : Nat
  generation : Nat
deriving DecidableEq, Repr

/-- The contents of ROD_MAP, TALLY_BUDGET, PLACEMENT, IO_LAYOUT, GATHER_PLAN and STEP_PROGRAM, whose byte layout the
spec does not give (log 8). -/
structure ImageContents where
  computeRods : List RodId
  shadowRods : List RodId
  rotationOffset : Nat
  threads : List Thread
  defs : List BeadDef
  moverProgs : List MoverProg
  histTable : List (Nat × Word32)
  plan : List PlanList
  /-- the plan's destination route table (R59) -/
  routes : List (List BeadId)
  /-- the index positions that IO_LAYOUT declares in a request block: table and offset (R31, R482) -/
  indexPositions : List (Nat × Nat)
  tally : List (Nat × Nat × Nat)
  placement : List Region
  requestBytes : Nat
  outputBytes : Nat
  outputs : Nat
deriving DecidableEq, Repr

/-! ## Bead instruction fields -/

/-- The fields of an MMA instruction (R130). -/
structure MmaFields where
  fmt : BitVec 3
  walt : Bool
  arrays : BitVec 2
  bank : BitVec 1
  clear : Bool
  pack : BitVec 2
  ta : Bool
  tw : Bool
  wsrc : Bool
  wport : BitVec 1
  k : BitVec 12
  a0 : BitVec 4
  a1 : BitVec 4
  w : BitVec 4
  evt : BitVec 5
  evtEn : Bool
deriving DecidableEq, Repr

/-- The fields of an MV instruction (R125). -/
structure MvFields where
  channel : BitVec 2
  src : BitVec 4
  dst : BitVec 4
  len : BitVec 4
  srcSpace : BitVec 2
  dstSpace : BitVec 2
  evt : BitVec 5
  evtEn : Bool
  prog : BitVec 12
deriving DecidableEq, Repr

/-- The fields of a COIL instruction (R144). -/
structure CoilFields where
  coilId : BitVec 12
  addr : BitVec 4
  count : BitVec 16
  evt : BitVec 5
  evtEn : Bool
deriving DecidableEq, Repr

/-- The fields of a VEC instruction but OP, which the command itself is (R151, R152). -/
structure VecFields where
  dsel : BitVec 3
  asel : BitVec 3
  bsel : BitVec 3
  csel : BitVec 3
  dst : BitVec 4
  a : BitVec 4
  b : BitVec 4
  c : BitVec 4
  n : BitVec 13
  mask : BitVec 4
  men : Bool
  minv : Bool
  mzero : Bool
  imm : Word32
  aux : BitVec 16
  evt : BitVec 5
  evtEn : Bool
  slot : BitVec 6
deriving DecidableEq, Repr

/-! ## Gather and carry operands -/

/-- An index list as a gather unit receives it (R59), with the firing and plan list it belongs to, and the route and done
counter that its plan names. -/
structure IndexList where
  handle : Nat
  plan : Nat
  table : Nat
  indices : List Word32
  route : List BeadId
  perBead : Nat
  destOffset : Nat
  destStride : Nat
  firstPos : Nat
  counter : Nat
deriving DecidableEq, Repr

/-- A carry operation (R82): header fields and deltas as encoded words of DELTA_FMT. -/
structure CarryOp where
  opcode : BitVec 8
  deltaFmt : BitVec 8
  table : BitVec 16
  row : Word32
  firstBlock : BitVec 16
  blockCount : BitVec 16
  factor : Word32
  epsilon : Word32
  reserved : Word32
  accAddr : Word64
  deltas : List Word32
deriving DecidableEq, Repr

/-- Where a carry operation comes from (R81, R91); a window operation names the frame that received it (R352). -/
inductive CarrySource where
  | step (bead : BeadId) (handle : Nat)
  | window (window frame : Nat)
  | command (cid : Nat)
  | kiln
  | forwarded (num : Nat)
deriving DecidableEq, Repr

/-- A row image: class, row scale, glaze bytes and blocks (R60, R93). -/
structure RowImage where
  cls : WidthClass
  scale : BitVec 16
  glaze : List Byte
  blocks : List Byte
deriving DecidableEq, Repr

/-- Where a kiln copy of a row goes: a slot of a tier and class under a row scale (R56, R92), or a tier F extent (R247). -/
inductive RowTarget where
  | slot (tier : Tier) (cls : WidthClass) (slot : Nat) (scale : BitVec 16)
  | extent (ext : Nat)
deriving DecidableEq, Repr

/-- A stream record (R98). -/
structure StreamRec where
  seq : Nat
  tier : Tier
  burst : Nat
  side : List Byte
  data : List Byte
deriving DecidableEq, Repr

/-! ## Journal records (R105, R106) -/

/-- The body of a journal record (R106). -/
inductive JournalBody where
  | carry (op : CarryOp)
  | rowWrite (slotEntry : Word64) (image : RowImage)
  | switch (old new : Word64)
  | relocate (old new : Word64)
  | checkpoint (shard : Nat) (jseq : Nat)
  | epochStart (moduleId epoch : Nat) (lastSeq : List Nat)
  | gap (first last : Nat)
deriving DecidableEq, Repr

/-- A journal record (R105): FRAME, COLD flag, TABLE_ID, JSEQ, MSEQ, ROW and body. -/
structure JournalRec where
  frame : Nat
  cold : Bool
  table : Nat
  jseq : Nat
  mseq : Nat
  row : Nat
  body : JournalBody
deriving DecidableEq, Repr

/-- A checkpoint of a shard in tier F (R108, R109): the JSEQ at which it is consistent, and for each local row its directory
entry and, where it was resident, its image. -/
structure Checkpoint where
  frame : Nat
  table : Nat
  shard : Nat
  jseq : Nat
  rows : List (Word64 × Option RowImage)
deriving DecidableEq, Repr

/-- What VC 2 of a twin link carries to the secondary: a stream record, or a journal record, checkpoint or cold-row extent for the
saggars of the twin (R98, R104, R380). -/
inductive TwinRec where
  | burst (r : StreamRec)
  | journal (r : JournalRec)
  | checkpoint (c : Checkpoint)
  | extent (ext : Nat) (image : RowImage)
deriving DecidableEq, Repr

/-! ## Links, fabric and twin -/

/-- A flit as a receiver sees it (R368): type, VC, NAK, sequence, ACK, credits, payload, whether FEC corrected a
codeword and whether the CRC is good (R369). -/
structure Flit where
  type : BitVec 4
  vc : BitVec 2
  nak : Bool
  fseq : BitVec 12
  credVc : BitVec 2
  ack : BitVec 12
  credits : Nat
  payload : List Byte
  corrected : Nat
  crcGood : Bool
deriving DecidableEq, Repr

/-- IDENT of a peer (R372). -/
structure PeerIdent where
  moduleId : BitVec 16
  frame : BitVec 5
  link : BitVec 2
  twinKind : Bool
deriving DecidableEq, Repr

/-- The header of a transaction (R377), with its data. -/
structure Txn where
  status : BitVec 8
  dst : BitVec 16
  src : BitVec 16
  window : Nat
  offset : Nat
  length : Nat
  tid : BitVec 16
  tcrcGood : Bool
  data : List Byte
deriving DecidableEq, Repr

/-- HELLO of the twin (R381): module ID, role, epoch, last EPOCH_START epoch, MIRROR_STATE of the frame. -/
structure HelloMsg where
  moduleId : BitVec 16
  role : BitVec 2
  epoch : BitVec 16
  journalEpoch : BitVec 16
  mirror : BitVec 2
deriving DecidableEq, Repr

/-! ## Environment operands -/

/-- What a read of a burst finds (R240, R241, R243). -/
inductive BurstCheck where
  | clean | correctable | uncorrectable
deriving DecidableEq, Repr

/-- An error that the check bytes of a burst show to the engine that reads it (R240, R241). -/
structure BurstFound where
  frame : Nat
  tier : Tier
  burst : Nat
  check : BurstCheck
deriving DecidableEq, Repr

/-- A resource that is mapped out (R244). -/
inductive MemUnit where
  | channel (c : Nat)
  | package (p : Nat)
deriving DecidableEq, Repr

/-- Why a rod fails (R425). -/
inductive RodCause where
  | memory | liveness | test | shadow | corrected
deriving DecidableEq, Repr

/-- The three kinds of over-temperature that trip the module (R391). -/
inductive TripCause where
  | junction | stack | package
deriving DecidableEq, Repr

/-- Result of checking one firmware slot under R403, as the kiln's boot ROM finds it (log 10): 0 passes, otherwise the
LAST_ERR code of R416. -/
abbrev SlotCheck := Nat

/-- What a boot finds on one frame (R396, R397): the check of each firmware slot, whether the IVR ramp and the cone
calibration succeed, whether its calibration record passes its CRC (R442), and the channels and packages that fail training;
`memFails` when step 8 fails altogether. -/
structure BootFrame where
  slotA : SlotCheck
  slotB : SlotCheck
  ramp : Bool
  cone : Bool
  cal : Bool
  memFails : Bool
  channels : List Nat
  packages : List Nat
  rate : Nat
deriving DecidableEq, Repr

/-- A cartridge as inserted (R431, R432): serial, whether the four signatures verify and it answers in time, the module
ID and epoch of its volume header, the bytes it reports written, and what its volume holds (log 56). -/
structure Cartridge where
  serial : BitVec 128
  certGood : Bool
  signGood : Bool
  answers : Bool
  header : Option (BitVec 16 × BitVec 16)
  written : Nat
  holds : List TwinRec
deriving DecidableEq, Repr

/-- The fields of a Priven image that R403 checks by value (R402). -/
structure FwForm where
  magic : Word32
  format : BitVec 16
  kind : BitVec 16
  keySlot : BitVec 8
  payloadBytes : Word32
  entry : Word32
deriving DecidableEq, Repr

/-- A firmware image of FW_STAGE (R402, R406): its header, and how the checks of its keys, signatures and digest end (R403; log
10). -/
structure FwImage where
  svn : Word32
  ifLevel : BitVec 16
  version : BitVec 64
  form : FwForm
  check : SlotCheck
deriving DecidableEq, Repr

/-- An index list to be built (R482): list `plan` of the gather plan of a firing; `host` is what its request blocks hold at the
index positions that lie outside device memory (log 8). -/
structure ListDraw where
  handle : Nat
  plan : Nat
  host : List Byte
deriving DecidableEq, Repr

/-- A run-ahead list to be built (R76, R482): list `plan` of the gather plan, and `host` as in `ListDraw` (log 8). -/
structure AheadDraw where
  plan : Nat
  host : List Byte
deriving DecidableEq, Repr

/-- The commands (spec/opcode_table.json, in its order). Operands with a default are what the module finds or is told on the way: a
command that names none finds no error (log 80), and takes the case that its default says. -/
inductive Instr where
  -- commands from the rings: `c` is the command in flight, other operands are what the module reads or is told
  | firingAdmit (c : Nat) (img : ImageContents)
  | firingRun (c : Nat)
  | firingSwap (c : Nat) (img : ImageContents)
  | firingWithdraw (c : Nat)
  | firingPreempt (c : Nat)
  | firingResume (c : Nat)
  | carrySubmit (c : Nat) (hostData : List Byte)
  | rowWrite (c : Nat) (hostData : List Byte)
  | rowSwitch (c : Nat)
  | memPrefetch (c : Nat) (targets : List Nat)
  | memAdvise (c : Nat)
  | tlbInvalidate (c : Nat)
  | faultResolve (c : Nat)
  | faultAbort (c : Nat)
  | faultQuery (c : Nat)
  | histRead (c : Nat)
  | check (c : Nat) (twinPasses : Bool := true)
  | commit (c : Nat) (twinApplied : Bool := false)
  | twinHandover (c : Nat)
  | journalReplay (c : Nat)
  | fenceSignal (c : Nat)
  | nop (c : Nat)
  -- doorbells and rings
  | doorbellSnoop (port ring : Nat)
  | nudge (port offset size : Nat)
  | doorbellRead (port ring : Nat) (word : Word64)
  | descFetch (port ring : Nat) (host : List (Nat × RawDesc))
  | refetchTimer (port ring : Nat)
  | descAccept (port ring : Nat)
  | fenceSatisfied (c : Nat)
  | paramBlockRead (c : Nat)
  | chainStart (port ring : Nat)
  | commandTimeout (c : Nat)
  | completionSpaceRecheck (port ring : Nat) (word : Word64)
  | ringEnable (port ring : Nat) (value : Word64)
  | ringDisable (port ring : Nat) (value : Word64)
  | ringDrainEnd (port ring : Nat)
  -- step events
  | stepBoundary (handle : Nat)
  | stepEnd (handle : Nat)
  | frameQuiescent (frame : Nat)
  | forwardPassEnd (handle : Nat)
  | tiePassStart (handle : Nat)
  | gradRuleEval (handle rule : Nat)
  -- bead scalar instructions: bead, context, fields (R117)
  | ctrlNop (b : BeadId) (c : Nat)
  | ctrlAdd (b : BeadId) (c : Nat) (rd rs rt : BitVec 4)
  | addi (b : BeadId) (c : Nat) (rd rs : BitVec 4) (imm : BitVec 42)
  | sub (b : BeadId) (c : Nat) (rd rs rt : BitVec 4)
  | and (b : BeadId) (c : Nat) (rd rs rt : BitVec 4)
  | or (b : BeadId) (c : Nat) (rd rs rt : BitVec 4)
  | xor (b : BeadId) (c : Nat) (rd rs rt : BitVec 4)
  | shl (b : BeadId) (c : Nat) (rd rs : BitVec 4) (imm : BitVec 42)
  | shr (b : BeadId) (c : Nat) (rd rs : BitVec 4) (imm : BitVec 42)
  | li (b : BeadId) (c : Nat) (rd : BitVec 4) (imm : BitVec 42)
  | lih (b : BeadId) (c : Nat) (rd : BitVec 4) (imm : BitVec 42)
  | lds (b : BeadId) (c : Nat) (rd rs : BitVec 4) (imm : BitVec 42)
  | beq (b : BeadId) (c : Nat) (rs rt : BitVec 4) (imm : BitVec 42)
  | bne (b : BeadId) (c : Nat) (rs rt : BitVec 4) (imm : BitVec 42)
  | bltu (b : BeadId) (c : Nat) (rs rt : BitVec 4) (imm : BitVec 42)
  | loop (b : BeadId) (c : Nat) (imm : BitVec 42)
  | rest (b : BeadId) (c : Nat)
  | endStep (b : BeadId) (c : Nat)
  | wait (b : BeadId) (c : Nat) (counter : BitVec 5) (value : BitVec 16) (scope : BitVec 3)
  | signal (b : BeadId) (c : Nat) (counter : BitVec 5) (target : BitVec 4) (scope : BitVec 3)
  | mma (b : BeadId) (c : Nat) (m : MmaFields)
  | mmaComplete (b : BeadId)
  | fillerExpire (b : BeadId) (array : Nat)
  | mv (b : BeadId) (c : Nat) (m : MvFields)
  | mvComplete (r : RodId) (channel : Nat) (hostData : List Byte) (found : List BurstFound := [])
  | coilInject (b : BeadId) (c : Nat) (k : CoilFields)
  | coilLand (b : BeadId) (c : Nat) (k : CoilFields)
  | coilFlitAccept (handle coil origin idx : Nat)
  | coilComplete (b : BeadId) (job : Nat)
  -- vector engine
  | vecChainStart (b : BeadId) (c n : Nat)
  | vecComplete (b : BeadId)
  | vadd (b : BeadId) (c : Nat) (v : VecFields)
  | vsub (b : BeadId) (c : Nat) (v : VecFields)
  | vmul (b : BeadId) (c : Nat) (v : VecFields)
  | vfma (b : BeadId) (c : Nat) (v : VecFields)
  | vmax (b : BeadId) (c : Nat) (v : VecFields)
  | vmin (b : BeadId) (c : Nat) (v : VecFields)
  | vabs (b : BeadId) (c : Nat) (v : VecFields)
  | vneg (b : BeadId) (c : Nat) (v : VecFields)
  | vmov (b : BeadId) (c : Nat) (v : VecFields)
  | vdiv (b : BeadId) (c : Nat) (v : VecFields)
  | vrsqrt (b : BeadId) (c : Nat) (v : VecFields)
  | vexp (b : BeadId) (c : Nat) (v : VecFields)
  | vsigm (b : BeadId) (c : Nat) (v : VecFields)
  | vtanh (b : BeadId) (c : Nat) (v : VecFields)
  | vgelu (b : BeadId) (c : Nat) (v : VecFields)
  | vsel (b : BeadId) (c : Nat) (v : VecFields)
  | vcmpgt (b : BeadId) (c : Nat) (v : VecFields)
  | vcmpge (b : BeadId) (c : Nat) (v : VecFields)
  | vcmpeq (b : BeadId) (c : Nat) (v : VecFields)
  | vdq (b : BeadId) (c : Nat) (v : VecFields)
  | vdqr (b : BeadId) (c : Nat) (v : VecFields)
  | vqb (b : BeadId) (c : Nat) (v : VecFields)
  | vrsum (b : BeadId) (c : Nat) (v : VecFields)
  | vrmax (b : BeadId) (c : Nat) (v : VecFields)
  | vrmin (b : BeadId) (c : Nat) (v : VecFields)
  | vramax (b : BeadId) (c : Nat) (v : VecFields)
  | vidx (b : BeadId) (c : Nat) (v : VecFields)
  | vchk (b : BeadId) (c : Nat) (v : VecFields)
  | vhist (b : BeadId) (c : Nat) (v : VecFields)
  | vstat (b : BeadId) (c : Nat) (v : VecFields)
  -- gather and promotion
  | indexList (frame unit : Nat) (l : ListDraw)
  | gatherPosition (frame unit : Nat) (found : List BurstFound := [])
  | runAheadList (frame unit cid : Nat) (l : AheadDraw)
  | promotion (frame : Nat) (target : RowTarget) (fromAdvice : Bool)
  | promotionRoomTimeout (frame : Nat)
  | counterDecay (frame table row : Nat) (value : BitVec 16)
  | kilnPolicyMove (frame table row : Nat) (target : RowTarget)
  | relocation (frame table row : Nat) (tier : Tier) (cls : WidthClass) (slot : Nat) (scale : BitVec 16)
  -- carry
  | carryDispatch (frame : Nat) (op : CarryOp) (src : CarrySource) (found : List BurstFound := [])
  | add (frame unit : Nat) (found : List BurstFound := [])
  | addScaled (frame unit : Nat) (found : List BurstFound := [])
  | journalDrain (frame count : Nat)
  | journalAck (bay : Bay) (count : Nat)
  | gapRecord (frame : Nat)
  | checkpointShard (frame table shard : Nat)
  -- twin
  | streamRecord (frame : Nat) (r : TwinRec)
  | dirtyResend (frame : Nat)
  | mirrorSweep (frame : Nat) (tier : Tier) (region : Nat)
  | twinSilence
  | silenceSelfFence (frames : List BootFrame)
  | silenceFenceAssert
  | twinFenceIn (tw4 : Bool := false)
  | twinFenceRelease (frames : List BootFrame) (tw4 : Bool := false)
  | hello (frame : Nat) (m : HelloMsg) (frames : List BootFrame)
  | streamAck (frame seq : Nat)
  | pairEvent (target : BeadId) (counter : BitVec 5)
  | carryFwd (frame num : Nat) (op : CarryOp)
  | fwdAck (num : Nat)
  | digest (frame : Nat) (tier : Tier) (region seq : Nat) (value : Word64)
  | burstReq (frame : Nat) (tier : Tier) (burst : Nat)
  | mapout (frame : Nat) (tier : Tier) (retired : List Nat) (moves : List (Nat × Nat))
  | atRisk (frame : Nat) (band : BitVec 2)
  | handover (lastSeq : List Nat)
  -- memory tiers
  | hbmTempSample (frame : Nat) (temp : Option Int)
  | bandAction (frame : Nat)
  | scrub (frame : Nat) (tier : Tier) (burst : Nat) (found : BurstCheck)
  | mapOut (frame : Nat) (unit : MemUnit) (moves : List (Nat × Nat)) (training : Bool := false)
  | pageRestore (frame : Nat) (tier : Tier) (page : Nat) (data side : List Byte)
  | pageSwitch (c : Nat) (hostData : List Byte)
  -- window, bias and ports
  | windowRead (port offset len : Nat) (found : List BurstFound := [])
  | windowWrite (port offset : Nat) (data : List Byte)
  | winBaseWrite (port : Nat) (value : Word64)
  | winSlideDone (port : Nat)
  | biasSet (port page : Nat)
  | biasClear (port page : Nat)
  | birsp (port page : Nat)
  | attach (port : Nat) (value : Word64)
  | shadowHeadWrite (port : Nat) (value : Word64)
  | faultRingHeadWrite (port : Nat) (value : Word64)
  | kilnFaultResolve (part faultId : Nat) (readable : Bool)
  | perst (port acked : Nat)
  | hotReset (port acked : Nat)
  | functionLevelReset (port acked : Nat)
  | d3hotEntry (port acked : Nat)
  | dlDown (port acked : Nat)
  | viral (port acked : Nat)
  | linkRecovery (port : Nat) (enter : Bool)
  | recoveryTimeout (port acked : Nat)
  | hostLinkUp (port : Nat) (cxl flit : Bool) (speed : BitVec 4) (width : BitVec 5)
  -- tallies, cone loop, accounting
  | tallyPeriod (frame avgPower : Nat)
  | quotaPoolRelease (frame : Nat)
  | coneSample (frame rate power : Nat)
  | frameCapWrite (port frame : Nat) (value : Word64)
  | speedWrite (port frame : Nat) (value : Word64)
  | acctFree (port : Nat) (value : Word64)
  -- rods
  | rodTestStart (port : Nat) (value : Word64)
  | spareRodTest (frame group phys : Nat)
  | rodTestDone (frame group phys : Nat) (pass : Bool)
  | livenessProbe (r : RodId) (answered : Bool)
  | rodFail (r : RodId) (cause : RodCause)
  -- links and fabric
  | flitReceive (frame link : Nat) (f : Flit)
  | nak (frame link : Nat) (ack : BitVec 12)
  | linkTraining (frame link lanes : Nat) (peer : PeerIdent)
  | ident (frame link : Nat) (peer : PeerIdent)
  | linkRetrain (frame link : Nat)
  | txnWrite (frame : Nat) (t : Txn)
  | txnRead (frame : Nat) (t : Txn) (found : List BurstFound := [])
  | txnResp (t : Txn)
  | txnForward (frame : Nat) (t : Txn) (request : Bool)
  | fabricTimeoutExpire (tid : BitVec 16)
  -- power, clock, reset
  | powerOn (frames : List BootFrame)
  | powerLoss
  | resetPin
  | kilnWatchdog (frame : Nat) (third : Bool) (acked : Nat) (boot : BootFrame)
  | kilnReturn (frame : Nat)
  | fwConfirm (frame : Nat)
  | fenceAndReset (frame acked : Nat) (boot : BootFrame)
  | thermalTrip (cause : TripCause)
  | thermalTripEnd (frames : List BootFrame)
  | clkLoss
  | clkReturn (frames : List BootFrame)
  -- configuration and SMBus
  | gwDiscard (port : Nat) (value : Word64)
  | registerWrite (port offset size : Nat) (value : Word64)
  | status
  | regRead (port offset : Nat)
  | regWrite (offset : Nat) (value : Word64) (pec : Bool)
  | mbLayout (offset : Nat) (data : List Byte) (pec : Bool)
  | mbEntry (entry : List Byte) (pec : Bool)
  | mbCheck (pec : Bool)
  | mbCommit (pec : Bool)
  | mbDiscard (pec : Bool)
  | moduleReset (key : BitVec 16) (frames : List BootFrame) (pec : Bool)
  | frameReset (frame acked : Nat) (boot : BootFrame) (pec : Bool)
  | protCommit (frames : List BootFrame) (pec : Bool)
  | fwStage (mask : BitVec 20) (img : FwImage) (pec : Bool)
  | fwActivate (mask : BitVec 20) (pec : Bool)
  | fwPrefer (mask : BitVec 20) (pec : Bool)
  | calWrite (data : List Byte) (pec : Bool)
  | calCommit (pec : Bool)
  | alertResponse
  -- saggars
  | eject (bay : Bay) (force : Bool)
  | adopt (bay : Bay)
  | saggarInsert (bay : Bay) (cart : Cartridge)
  | saggarDrainDone (bay : Bay)
  | saggarRemove (bay : Bay)
  | saggarRebuildDone (bay : Bay) (copies : List TwinRec := [])
  | resetPinRelease (frames : List BootFrame)
  | auxValid
  | keepAliveLoss
deriving DecidableEq, Repr

end Sys2Proof
end

