-- ==== Sys2Proof/Config.lean ====
section
/-! DEFINITION. What the spec leaves open: free values as constants without a body, so that nothing can be proved of the
value they take (log 5, 12, 13, 14). Fuses and flash contents are fields of State. -/

namespace Sys2Proof.Config

/-- A measured time, in µs, that no rule states: ELAPSED_US (R308) and the accounting times (R359). The argument is
the state's counter of free values (log 5). -/
opaque freeTime : Nat → Nat

/-- A measured energy, in µJ (R360) (log 5). -/
opaque freeEnergy : Nat → Nat

/-- Bytes of gathers, copies, host and lane transfers that a step adds to its USE record (R359): how a byte counts that is
moved and crosses a port is not stated (log 5). -/
opaque freeBytes : Nat → Nat

/-- Which two partial sums an FP32 reduction adds next (R168: the order is not fixed) (log 14). -/
opaque sumPick : Nat → Nat → Nat

/-- How far VDIV or VRSQRT lies from the exactly rounded result, in units in the last place; R158 bounds it by 1 (log 13). -/
opaque ulpOne : Nat → Int

/-- How far VEXP, VSIGM, VTANH or VGELU lies from the formula's value rounded to FP32; R158 bounds it by 2 (log 13). -/
opaque ulpTwo : Nat → Int

/-- The value of a memory byte that the spec leaves unstated (contents lost, a read without order, R258, R261) (log 12). -/
opaque freeByte : Nat → Byte

/-- The row scale of a default row copy, by the copy's frame and address: the spec says that a default row has one and not where
it is kept (log 26). -/
opaque defaultScale : Nat → BitVec 16

/-- Which free block of a history pool the allocator gives next: no rule fixes the choice (R217, R218) (log 42). -/
opaque blockPick : Nat → Nat

/-- The extent that a row marked non-resident names after a map-out without a twin: which extent holds its copy is not stated
(log 61). -/
opaque freeExtent : Nat → Nat

/-- The 64-bit digest of a region's data and side bytes (R100): the spec names the digest and not the function (log 20). -/
opaque digest64 : List Byte → Word64

/-- The two FEC check bytes of each of a flit's three codewords, over the bytes before them: the spec names the code and not its
polynomial (R368, R369) (log 110). -/
opaque fecBytes : List Byte → BitVec 48

/-- FSEQ of an IDLE flit, which is not sequenced (R368) (log 110). -/
opaque idleFseq : Nat → BitVec 12

/-- The address strap ADDR[2:0] of MGMT (R469). -/
opaque addrStrap : BitVec 3

/-- The 7-bit address of the module's SMBus target (R474). -/
def smbusAddress : Nat := 0x58 + addrStrap.toNat

/-- PART_MAX of the protection set (R346, R400). -/
def partMax : Nat := 4

/-- PART_MIN_FRAMES of the protection set (R346, R400). -/
def partMinFrames : Nat := 1

/-- DEBUG_LOCK of the protection set: closed, so there is no debug access (R400). -/
def debugLock : Nat := 2

end Sys2Proof.Config
end

