-- ==== Sys2Proof/Machine/Sparse.lean ====
section
/-! DEFINITION. Sparse stores: lists of (key, value) pairs in one canonical form, keys strictly rising and no value equal
to what an unlisted key reads as. Memory and every register file of many entries is one of these. -/

namespace Sys2Proof

/-- A sparse store. Its canonical form is `Sparse.wf`. -/
abbrev Sparse (α : Type) := List (Nat × α)

namespace Sparse

/-- The value listed at `k`, if any. -/
def find {α : Type} : Sparse α → Nat → Option α
  | [], _ => none
  | (i, v) :: m, k => if i = k then some v else find m k

/-- What the store reads at `k`: the listed value, or `d`. -/
def read {α : Type} (d : α) (m : Sparse α) (k : Nat) : α := (find m k).getD d

/-- Remove every entry at `k`. -/
def erase {α : Type} : Sparse α → Nat → Sparse α
  | [], _ => []
  | (i, v) :: m, k => if i = k then erase m k else (i, v) :: erase m k

/-- List `v` at `k`, in key order. -/
def insert {α : Type} : Sparse α → Nat → α → Sparse α
  | [], k, v => [(k, v)]
  | (i, w) :: m, k, v =>
    if i = k then (k, v) :: m
    else if k < i then (k, v) :: (i, w) :: m
    else (i, w) :: insert m k v

/-- Write `v` at `k` in a store whose unlisted keys read `d`: writing `d` removes the entry. -/
def write {α : Type} [DecidableEq α] (d : α) (m : Sparse α) (k : Nat) (v : α) : Sparse α :=
  if v = d then erase m k else insert m k v

/-- Change what is read at `k` by `g`. -/
def modify {α : Type} [DecidableEq α] (d : α) (m : Sparse α) (k : Nat) (g : α → α) : Sparse α :=
  write d m k (g (read d m k))

/-- Change every listed value by `g`, which keeps `d`. -/
def mapAll {α : Type} [DecidableEq α] (d : α) (g : α → α) (m : Sparse α) : Sparse α :=
  (m.map fun p => (p.1, g p.2)).filter fun p => decide (p.2 ≠ d)

/-- Every key of the list is above `b`, and the keys rise strictly. -/
def risesFrom {α : Type} : Sparse α → Nat → Bool
  | [], _ => true
  | (i, _) :: m, b => decide (b ≤ i) && risesFrom m (i + 1)

/-- The canonical form: keys strictly rising, no entry equal to `d`. -/
def wf {α : Type} [DecidableEq α] (d : α) (m : Sparse α) : Bool :=
  risesFrom m 0 && m.all (fun p => decide (p.2 ≠ d))

end Sparse

/-- Byte memory: unlisted addresses read 0 (R396: boot step 8 zeroes tier H and tier L; log 3). -/
abbrev Mem := List (Nat × BitVec 8)

namespace Mem

/-- Read one byte. -/
def get (m : Mem) (a : Nat) : Byte := Sparse.read 0#8 m a

/-- Write one byte. -/
def set (m : Mem) (a : Nat) (b : Byte) : Mem := Sparse.write 0#8 m a b

/-- Read `n` bytes from `a` up. -/
def bytes (m : Mem) (a : Nat) : Nat → List Byte
  | 0 => []
  | n + 1 => m.get a :: bytes m (a + 1) n

/-- Write the bytes from `a` up. -/
def setBytes (m : Mem) (a : Nat) : List Byte → Mem
  | [] => m
  | b :: bs => setBytes (m.set a b) (a + 1) bs

/-- Set `n` bytes from `a` up to 0. -/
def zero (m : Mem) (a n : Nat) : Mem := m.filter (fun p => p.1 < a || a + n ≤ p.1)

/-- The canonical form of memory. -/
abbrev wf (m : Mem) : Bool := Sparse.wf 0#8 m

end Mem

end Sys2Proof
end

