-- ==== Sys2Proof/Machine/State.lean ====
section
/-! DEFINITION. The state of the DV2020 as plain data: memory, frames, beads, rods, firings, commands in flight, partitions,
ports, rings, twin, journal, bays, reset and management state, and the queue of waiting commands. Each field names the
rule of spec/ that gives it; its value at reset is in `State.reset` (INVENTORY.md, State). -/

namespace Sys2Proof.Machine

/-! ## How a command can stop -/

/-- Faults. Raised by any meaning that is handed a unit the spec says does not exist. -/
inductive Fault where
  /-- A command names a unit beyond the counts of R7, R10, R288 or R346: frame 20 and above, port 4 and above, and so
  on. Safe: the hardware has no such unit, so no run of the hardware is cut short. -/
  | noSuchUnit
deriving DecidableEq, Repr

/-- Refusals. -/
inductive Refusal where
  /-- Raised by an arm of `exec` whose command has no meaning yet. Safe: the run stops. -/
  | notModelled (mnemonic : String)
deriving DecidableEq, Repr

/-! ## Memory -/

/-- A place in device memory: a byte offset in a tier of a frame (R268, R270). -/
structure Place where
  frame : Nat
  tier : Tier
  off : Nat
deriving DecidableEq, Repr

/-- Name of a burst or page frame: frame, tier, number (R228, R230, R235). -/
structure Unit64 where
  frame : Nat
  tier : Tier
  num : Nat
deriving DecidableEq, Repr

/-- A burst in which an uncorrectable error was found since the memory was last trained (R241, R244): the channel that it lay on,
whether it has been written whole since, and whether a second error came after that. -/
structure BurstErr where
  burst : Unit64
  channel : Nat
  rewritten : Bool
  again : Bool
deriving DecidableEq, Repr

/-- The memories of the module. `dram` and `side` are keyed over all frames and tiers; `scratch` and `pool` over all
beads and rods (R253, R54, R122, R123). -/
structure Memory where
  /-- data bytes of tier H and tier L (R226, R229) -/
  dram : Mem
  /-- side bytes, four per burst (R54) -/
  side : Mem
  /-- 16 KiB of scratch per bead (R122) -/
  scratch : Mem
  /-- 64 KiB of rod pool per rod (R123) -/
  pool : Mem
  /-- bursts whose check bytes hold the poison pattern (R241) -/
  poisoned : List Unit64
  /-- page frames whose contents were lost: every burst poisoned, until one is written whole (R241, R245) -/
  lost : List Unit64
  /-- page frames being restored (R241, R245) -/
  restoring : List Unit64
  /-- page frames retired by a map-out (R246) -/
  retired : List Unit64
  /-- bursts in which uncorrectable errors were found (R244) -/
  errors : List BurstErr
deriving DecidableEq, Repr

/-! ## Tables -/

/-- A table descriptor (R50). -/
structure TableDesc where
  table : Nat
  rowElements : Nat
  rows : Nat
  shardCount : Nat
  shardMode : Nat
  blockShift : Nat
  allowed : BitVec 8
  defaultClass : Nat
  shardMap : Nat
deriving DecidableEq, Repr

/-- A shard map entry (R52). -/
structure ShardEntry where
  frame : Nat
  unit : Nat
  localRows : Nat
  directory : Nat
  counters : Nat
  default : Nat
deriving DecidableEq, Repr

/-- A page in a pin table (R272): partition page number and where it lies. -/
structure PinPage where
  page : Nat
  place : Place
  write : Bool
deriving DecidableEq, Repr

/-- A registered table: its descriptor, the copy of its shard map, GENERATION, the partition it belongs to, and the
places of its shard pages, which COMMIT fixes (R50, R272, R347). -/
structure Table where
  desc : TableDesc
  shards : List ShardEntry
  generation : Nat
  owner : Nat
  pages : List PinPage
deriving DecidableEq, Repr

/-- A mirrored range (R97, R410): page frames START to START + COUNT − 1 of a tier. -/
structure MirrorRange where
  index : Nat
  tier : Tier
  start : Nat
  count : Nat
  owner : Nat
deriving DecidableEq, Repr

/-- An inbound window entry (R285). -/
structure Window where
  read : Bool
  write : Bool
  carry : Bool
  anySource : Bool
  source : BitVec 16
  part : Nat
  base : Nat
  size : Nat
deriving DecidableEq, Repr

/-! ## Beads and rods -/

/-- A loop that a context is in: first and last instruction index of the body, passes left (R117). -/
structure LoopFrame where
  first : Nat
  last : Nat
  left : Nat
deriving DecidableEq, Repr

/-- A WAIT in progress: counter, value and scope (R119, R255). -/
structure Waiting where
  counter : Nat
  value : Nat
  scope : Nat
deriving DecidableEq, Repr

/-- Writes into mirrored ranges that are ordered before what a context does next (R257, R263): for a frame, the next stream SEQ
after them; and the regions that they left dirty, each with its frame's next SEQ at that moment. -/
structure Known where
  seqs : List (Nat × Nat)
  regions : List (Unit64 × Nat)
deriving DecidableEq, Repr

/-- A release that an event counter holds: the counter's value after it, its scope, the bead that made it, and the writes ordered
before it (R256 to R258). -/
structure Release where
  count : Nat
  scope : Nat
  bead : BeadId
  known : Known
deriving DecidableEq, Repr

/-- A pair event that the primary holds: its target, the records and regions that the twin must acknowledge first, whether a frame
that it waits on has been DIRTY or DOWN, and the context that made it (R139, R263, R264). -/
structure PairEvent where
  target : BeadId
  counter : Nat
  known : Known
  held : Bool
  bead : BeadId
  ctx : Nat
deriving DecidableEq, Repr

/-- A thread context (R110, R111, R112, R192). -/
structure Ctx where
  /-- x1 to x15; x0 always reads 0 (R111) -/
  regs : Sparse Word64
  /-- index of the next instruction -/
  idx : Nat
  /-- loops the context is in, innermost first; at most 4 (R116) -/
  loops : List LoopFrame
  /-- END has been executed (R111, R113) -/
  ended : Bool
  /-- a WAIT in progress (R112) -/
  waiting : Option Waiting
  /-- PASS_SPLIT of the thread (R192) -/
  passSplit : Option Nat
  /-- TIE_SPLIT of the thread (R212) -/
  tieSplit : Option Nat
  /-- writes ordered before what the context does next (R257) -/
  known : Known
deriving DecidableEq, Repr

/-- An MMA queued or running: fields, the operand registers read at issue, k-steps done, its place in the bead's issue order
(R130, R132, R133, R139). -/
structure MmaJob where
  f : MmaFields
  a0 : Word64
  a1 : Word64
  w : Word64
  done : Nat
  seq : Nat
deriving DecidableEq, Repr

/-- An element in a chaining buffer, with its type (R162). -/
inductive Elem where
  | fp (v : Word32)
  | int (v : Int)
deriving DecidableEq, Repr

/-- A VEC instruction whose writes are done and whose completion is due (R148). -/
structure VecDone where
  evt : Nat
  evtEn : Bool
deriving DecidableEq, Repr

/-- A VEC instruction issued and not run yet: its operation, fields, context, the context's registers at issue, its place in the
bead's issue order (R147, R154, R167). -/
structure VecJob where
  op : Nat
  v : VecFields
  ctx : Nat
  regs : Ctx
  seq : Nat
deriving DecidableEq, Repr

/-- A chain that has not run: its context, the stages still to be issued, the stages issued (R161, R163). -/
structure VecChain where
  ctx : Nat
  left : Nat
  jobs : List VecJob
deriving DecidableEq, Repr

/-- The vector engine: chains that have not run, oldest first, the chaining buffers of the running chain, the instructions that
await completion (R139, R147, R162, R163). -/
structure VecEngine where
  chains : List VecChain
  buffers : Sparse (List Elem)
  done : List VecDone
deriving DecidableEq, Repr

/-- A flit retained at a coil port: its 64 bytes and how many of its 8 operand slices are consumed (R142). -/
structure CoilFlit where
  data : List Byte
  used : Nat
deriving DecidableEq, Repr

/-- Who takes the next flits of a port, in issue order (R142, R144): a COIL LAND with its scratch offset, the flits it
still wants and its event, or an MMA with WSRC 1. -/
inductive PortUse where
  | land (off left evt : Nat) (evtEn : Bool)
  | mma
deriving DecidableEq, Repr

/-- A coil port: retained flits, their takers, and the events of LANDs whose flits are in scratch (R139, R144). -/
structure CoilPort where
  flits : List CoilFlit
  uses : List PortUse
  landed : List VecDone
deriving DecidableEq, Repr

/-- An INJECT that awaits completion: its coil and event (R144). -/
structure CoilInj where
  coil : Nat
  evt : Nat
  evtEn : Bool
deriving DecidableEq, Repr

/-- A bead (R10, R110). -/
structure Bead where
  /-- contexts 0 to 7 -/
  ctxs : Sparse Ctx
  /-- event counters 0 to 31 (R118) -/
  counters : Sparse (BitVec 16)
  /-- the releases that each counter holds in this step (R256 to R258) -/
  releases : List (Nat × Release)
  /-- the context that issued last (R112) -/
  last : Nat
  /-- instructions issued, which orders MMAs and VEC reads at a bank (R133, R167) -/
  issued : Nat
  /-- accumulators, keyed array·128 + bank·64 + 8·row + column (R10) -/
  acc : Sparse Word32
  /-- banks, keyed array·2 + bank, whose type is INT32 (R133) -/
  bankInt : Sparse Bool
  /-- MMAs queued or running, oldest first (R139) -/
  mmas : List MmaJob
  vec : VecEngine
  /-- the exception word (R171) -/
  exc : Word32
  /-- histogram counters, keyed unit·32 + bin (R187) -/
  hist : Sparse Nat
  /-- some counter of the unit saturated (R188, R190) -/
  histSat : Sparse Bool
  /-- coil ports 0 and 1 -/
  ports : Sparse CoilPort
  /-- COIL INJECTs not completed -/
  injects : List CoilInj
  /-- filler operations left of each array; 0 is idle (R137) -/
  filler : Sparse Nat
  /-- MV requests queued or running on channels 0 to 2 (R139) -/
  mvs : Nat
deriving DecidableEq, Repr

/-- A place that a mover request names (R125, R127). -/
inductive MvPlace where
  | scratch (b : BeadId) (off : Nat)
  | pool (r : RodId) (off : Nat)
  | device (va : Nat)
  /-- the buffer of a command that reads its operands (R481) -/
  | command (cid off : Nat)
  | nothing
deriving DecidableEq, Repr

/-- One copy of a mover request, with the batch slot whose command it serves, if any (R127). -/
structure MvCopy where
  src : MvPlace
  dst : MvPlace
  len : Nat
  slot : Option Nat
deriving DecidableEq, Repr

/-- What a mover request does when it completes. -/
inductive MvKind where
  /-- copies: one, or the transfers of a mover program entry (R125, R127) -/
  | copy (ts : List MvCopy)
  /-- a gather-miss position handed over by a gather unit (R72) -/
  | gather (frame unit : Nat) (l : IndexList) (p : Nat)
  /-- a carry-miss operation held for the dispatcher of a frame (R91) -/
  | carry (frame : Nat) (op : CarryOp) (src : CarrySource)
deriving DecidableEq, Repr

/-- A mover request in a channel (R124, R139). -/
structure MvReq where
  handle : Nat
  /-- the bead that issued it -/
  bead : BeadId
  kind : MvKind
  evt : Nat
  evtEn : Bool
  /-- failed a check or was aborted: it moves nothing (R126, R280) -/
  dead : Bool
  /-- what it has written into mirrored ranges (R256, R263) -/
  wrote : Known
deriving DecidableEq, Repr

/-- A mover channel: requests oldest first, and the key it is stalled on, if any (R277, R279). -/
structure MvChannel where
  reqs : List MvReq
  stalled : Bool
deriving DecidableEq, Repr

/-- A rod: its mover's four channels (R124). -/
structure Rod where
  chans : Sparse MvChannel
deriving DecidableEq, Repr

/-! ## Gather and carry engines -/

/-- An entry of a unit's row buffer: the list and position it served, its index and the record it delivered (R65). -/
structure BufferEntry where
  list : Nat
  pos : Nat
  index : Word32
  record : List Byte
deriving DecidableEq, Repr

/-- A list held by a gather unit: its number in the unit, whether the unit has started it, its next position, the command of a
run-ahead list (R59, R65, R76). -/
structure ListState where
  l : IndexList
  num : Nat
  started : Bool
  next : Nat
  ahead : Option Nat
  /-- positions handed to movers and not delivered yet (R72) -/
  atMover : List Nat
  /-- positions whose row cannot be read and whose mover has no room for them yet (R72, R139) -/
  missed : List Nat
  /-- positions that run-ahead delivered before the step (R79, R120) -/
  filled : List Nat
deriving DecidableEq, Repr

/-- A gather unit: its lists, the one to serve next first (R64), and its row buffer of 64 entries, newest first (R65). -/
structure GatherUnit where
  lists : List ListState
  buffer : List BufferEntry
  /-- number of the next list -/
  nextNum : Nat
  /-- the last 64 rows that the unit queued for promotion, newest first (R70) -/
  recent : List (Nat × Nat)
deriving DecidableEq, Repr

/-- A carry operation resolved to a carry unit (R81): the slot the directory entry named. -/
structure CarryJob where
  op : CarryOp
  src : CarrySource
  tier : Tier
  cls : WidthClass
  slot : Nat
  scale : BitVec 16
deriving DecidableEq, Repr

/-- A carry operation recorded in the cold index (R91). -/
structure ColdEntry where
  op : CarryOp
  src : CarrySource
deriving DecidableEq, Repr

/-- A carry operation that its dispatcher has not accepted yet (R102, R353): the frame where it entered, and the transaction that
is answered once it is accepted (R286). -/
structure HeldOp where
  frame : Nat
  op : CarryOp
  src : CarrySource
  reply : Option Txn
deriving DecidableEq, Repr

/-- A row named by table and index. -/
structure RowKey where
  table : Nat
  row : Nat
deriving DecidableEq, Repr

/-- A slot of a row: where it lies and how many bursts it has (R55, R56). -/
structure SlotUse where
  key : RowKey
  frame : Nat
  tier : Tier
  slot : Nat
  bursts : Nat
  /-- steps that must end before the slot may be written again (R95) -/
  steps : List Nat
  /-- the burst of the entry that released it: the twin must have written it too (R93, R95) -/
  entry : Option Unit64
deriving DecidableEq, Repr

/-! ## Frames -/

/-- The supply and the cone loop of a frame (R361 to R366). -/
structure Cone where
  cap : Nat
  speed : Nat
  target : Nat
  rate : Nat
  mv : Nat
  overridden : Bool
  excess : Nat
  /-- samples until a slow step is allowed again: at most once per 10 µs (R362) -/
  slow : Nat
  /-- the certified rate and the rated power in 0.1 W of the 29 cone table entries in force (R439) -/
  tableRate : List Nat
  tablePower : List Nat
  /-- a cone table that a calibration commit put in flash and the next quiescent point brings into force (R441) -/
  nextRate : Option (List Nat)
  nextPower : Option (List Nat)
deriving DecidableEq, Repr

/-- The memory status of a frame (R236 to R246, R458). -/
structure FrameMem where
  band : Nat
  lost : Bool
  /-- successive samples that could not be read (R238) -/
  missed : Nat
  /-- band whose controller action is applied (R237) -/
  action : Nat
  chOut : List Nat
  pkgOut : List Nat
  /-- 0 IDLE, 1 CHOOSING, 2 RESTORING (R458) -/
  mapState : Nat
  /-- mapped-out resources whose retired page frames and targets are not chosen yet (R245, R246) -/
  choosing : List MemUnit
deriving DecidableEq, Repr

/-- The frame counters (R459). -/
structure Counters where
  memCe : Nat
  memUe : Nat
  poisonReads : Nat
  promoDrops : Nat
  badOps : Nat
  carrySat : Nat
  coldDrops : Nat
  evtSat : Nat
  pinErrs : Nat
  vecAddr : Nat
  pairHeld : Nat
  winRejects : Nat
  promoNoslot : Nat
deriving DecidableEq, Repr

/-- State of one rod group of a frame (R11, R12, R425): physical rod of each logical position (absent: the position's
own number), positions mapped to none, physical spares, failed physical rods. -/
structure Group where
  map : Sparse Nat
  missing : List Nat
  spares : List Nat
  failed : List Nat
  /-- failed positions that await substitution at the next quiescent point -/
  due : List Nat
  /-- physical rods under test (R428) -/
  testing : List Nat
  /-- missed liveness probes per logical position (R425) -/
  missed : Sparse Nat
deriving DecidableEq, Repr

/-- State of a twin stream or resend on one frame (R98, R99). -/
structure Stream where
  /-- SEQ of the next record to send -/
  nextSeq : Nat
  /-- sent and not acknowledged, oldest first -/
  unacked : List StreamRec
  /-- 64 KiB regions marked dirty -/
  dirty : List Unit64
  /-- dirty regions resent and not acknowledged, with the SEQ of the last record of each (R99) -/
  resent : List (Unit64 × Nat)
  /-- highest SEQ written here from the twin, plus one; 0: none -/
  written : Nat
  /-- digests waiting until their SEQ is written (R100) -/
  digests : List (Unit64 × Nat × Word64)
  /-- digests sent and waiting for the twin's answer, or retried (R100) -/
  swept : List Unit64
  /-- pair events for beads of this frame, held until records are acknowledged (R263, R264) -/
  events : List PairEvent
deriving DecidableEq, Repr

/-- Journal state of one frame (R104 to R108). -/
structure Journal where
  nextJseq : Nat
  /-- the staging ring, oldest first; with the number already sent to a saggar -/
  ring : List JournalRec
  sent : Nat
  ringBytes : Nat
  /-- size in force, in MiB; a new size waits for an empty ring (R464) -/
  sizeMib : Nat
  /-- first and last JSEQ lost because the ring was full (R107) -/
  lost : Option (Nat × Nat)
  /-- journal bytes since the last complete checkpoint (R108) -/
  sinceCkpt : Nat
  /-- a checkpoint is running, with the shards still to do (R108) -/
  ckptLeft : Option (List (Nat × Nat))
  /-- shards whose CHECKPOINT record must still follow the last GAP (R462) -/
  gapShards : List (Nat × Nat)
deriving DecidableEq, Repr

/-- A flit in a replay buffer (R370). -/
structure SentFlit where
  fseq : BitVec 12
  type : BitVec 4
  vc : BitVec 2
  payload : List Byte
  resends : Nat
deriving DecidableEq, Repr

/-- An Ozfer link (R367 to R373, R387). -/
structure Link where
  /-- 0 DOWN, 1 TRAINING, 2 L0 four lanes, 3 L0 two lanes, 4 MISWIRED -/
  state : Nat
  peer : PeerIdent
  replays : Nat
  retrains : Nat
  fecCorr : Nat
  crcErrs : Nat
  /-- FSEQ of the next flit to send, and of the last good flit received -/
  nextFseq : BitVec 12
  lastGood : BitVec 12
  /-- NAK has been sent for the gap in progress -/
  nakSent : Bool
  replay : List SentFlit
  /-- credits held per VC (R371) -/
  credits : Sparse Nat
  /-- flits that wait for a credit or for room in the replay buffer, oldest first (R370, R371) -/
  queue : List SentFlit
  /-- flits put on the wire, oldest first, 256 B each: what the link sends (R368) -/
  wire : List (List Byte)
  /-- receive buffers freed and not yet returned as credits, per VC (R371) -/
  owed : Sparse Nat
  /-- NAKs sent, with their ACK -/
  naks : List (BitVec 12)
  /-- payloads accepted, per VC, not yet consumed -/
  received : List (BitVec 2 × List Byte)
  /-- lanes as trained -/
  lanes : Nat
deriving DecidableEq, Repr

/-- A firmware slot (R401, R402). -/
structure FwSlot where
  /-- 0 EMPTY, 1 VALID, 2 TRIAL, 3 REJECTED -/
  state : Nat
  svn : Word32
  ifLevel : BitVec 16
  /-- VERSION of its image, informational -/
  version : BitVec 64
  /-- the other header fields of its image (R402) -/
  form : FwForm
deriving DecidableEq, Repr

/-- What FW_STATUS_f shows (R416): kept by the kiln (R448). -/
structure FwShown where
  aState : Nat
  bState : Nat
  runningB : Bool
  preferredB : Bool
  absent : Bool
  lastErr : Nat
  svn : Word32
  ifLevel : BitVec 16
deriving DecidableEq, Repr

/-- A kiln (R401 to R407): its flash slots and status. -/
structure Kiln where
  slotA : FwSlot
  slotB : FwSlot
  preferB : Bool
  runningB : Bool
  absent : Bool
  verified : Bool
  shown : FwShown
  /-- PLACE_f.FREE_RODS as it stood when the kiln became absent (R448) -/
  rods : Nat
deriving DecidableEq, Repr

/-- Why a firing leaves at a frame quiescent point. -/
inductive FrameAction where
  | withdraw (handle : Nat)
  | preempt (handle : Nat)
  | entry (handle : Nat)
  | commit (bank : Nat)
  | masterMove
  | substitute
  | recheck
  | promoteTwin
  | handoverStop
  | calibration
deriving DecidableEq, Repr

/-- Tally counters of a frame, as the units used of each in the present period; a use beyond the refill is debt that later
refills pay off (R352 to R354). -/
structure TallyCtr where
  /-- of each firing's reservation: keyed handle·16 + activity -/
  firing : Sparse Nat
  /-- of each partition's unreserved remainder: keyed partition·16 + activity -/
  remainder : Sparse Nat
  /-- of each partition's WIN_CARRY_ALLOC: keyed partition -/
  window : Sparse Nat
  /-- of the quotas: keyed partition·16 + activity -/
  quota : Sparse Nat
  /-- of the common pool: keyed activity -/
  pool : Sparse Nat
  /-- of the scrub counter -/
  scrub : Nat
  /-- the unused quotas of this period have gone to the pool (R354) -/
  released : Bool
  /-- partitions and activities with a request that waits in this period: keyed partition·16 + activity -/
  held : List Nat
deriving DecidableEq, Repr

/-- The calibration of a frame that is in force beside its cone table, as bytes of its record (R439, R441); nothing listed is
the factory's (log 112). -/
structure CalForce where
  /-- the frame uses the boot ROM's generic seeds (R442) -/
  generic : Bool
  offsets : List Byte
  trims : List Byte
  /-- HBM and LPDDR PHY seeds -/
  phy : List Byte
  /-- SerDes seeds of each link's lanes -/
  serdes : Sparse (List Byte)
deriving DecidableEq, Repr


/-- A frame (R7). -/
structure Frame where
  fenced : Bool
  counters : Counters
  mem : FrameMem
  cone : Cone
  groups : Sparse Group
  kiln : Kiln
  /-- gather units 0 to 15 -/
  gather : Sparse GatherUnit
  /-- the promotion queue, oldest first (R70) -/
  promo : List RowKey
  /-- the advice queue (R251) -/
  advice : List RowKey
  /-- carry units 0 to 11, operations in arrival order (R87) -/
  carry : Sparse (List CarryJob)
  cold : List ColdEntry
  tables : Sparse Table
  mirrored : List MirrorRange
  stream : Stream
  /-- DOWN: the twin lanes of the frame are not up (R99) -/
  streamUp : Bool
  journal : Journal
  links : Sparse Link
  tally : TallyCtr
  /-- pending frame actions (R39, R41) -/
  actions : List FrameAction
  /-- firings with waiting commands that must start a step before the next hold (R40) -/
  owed : List Nat
  /-- translation cache: partition and 64 KiB page number pairs with the leaf word (R273, R274) -/
  tlb : List (Nat × Nat × BitVec 65)
  shardGib : Nat
  cal : CalForce
deriving DecidableEq, Repr

/-! ## Firings -/

/-- A bead of a coil entry, with TAKE_FIRST and TAKE_COUNT (R140). -/
structure CoilTake where
  bead : BeadId
  first : Nat
  count : Nat
deriving DecidableEq, Repr

/-- An entry of the COIL_ROUTE section (R140). -/
structure CoilEntry where
  id : Nat
  kind : Nat
  srcSpace : Nat
  port : Nat
  source : Nat
  passBytes : Nat
  beads : List CoilTake
deriving DecidableEq, Repr

/-- Fixed parts of an admitted image (R28 to R34): header, bound, floor, and the section contents. -/
structure Image where
  firingId : Word64
  mode : Nat
  tied : Bool
  seq : Bool
  carryFlag : Bool
  batchSlots : Nat
  beadFrames : BitVec 20
  shardFrames : BitVec 20
  stepBound : Nat
  holdNs : Nat
  floorMops : Nat
  minPch : Nat
  minPkg : Nat
  minRods : Nat
  contents : ImageContents
  /-- raw GRAD_RULES entries in section order, and EVAL_STEPS (R197) -/
  rules : List (List Word64)
  evalSteps : Nat
  /-- HISTORY (R215): SEQ_BLOCKS, JOIN_MAX, MAX_STEPS, SLOT_WORD_OFFSET, SLOT_TABLE -/
  seqBlocks : Nat
  joinMax : Nat
  maxSteps : Nat
  slotWordOffset : Nat
  slotTable : Nat
  /-- COIL_ROUTE entries: id, kind, source space, port, source, pass bytes, beads with TAKE_FIRST and TAKE_COUNT -/
  coils : List CoilEntry
deriving DecidableEq, Repr

/-- Status of an admitted firing. -/
inductive FiringStatus where
  | entering | running | preempted
deriving DecidableEq, Repr

/-- A step in progress (R38). -/
structure Step where
  /-- batch slots and the commands in them -/
  slots : List (Nat × Nat)
  /-- every command of the step completes FAULTED (R126, R172, R241, R280) -/
  faulted : Bool
  /-- slots marked with a range trip (R420) -/
  trips : List Nat
  /-- slots whose mover entries move nothing (R127, R306) -/
  killed : List Nat
  /-- 0 forward, 1 backward, 2 tie pass (R192, R212) -/
  pass : Nat
deriving DecidableEq, Repr

/-- The running state of a gradient rule (R201, R202). -/
structure RuleState where
  fmt : Nat
  /-- 0 or the format that takes effect at the next step boundary (R202), plus one -/
  next : Nat
  sums : Sparse Nat
  /-- results of the last NARROW_HOLD evaluations, oldest first -/
  narrow : List Nat
  /-- counts read with clear after an EVAL_STEPS-th step and not yet evaluated, keyed by bin -/
  read : Option (Sparse Nat)
deriving DecidableEq, Repr

/-- A histogram record unit of a firing on a frame (R189, R190). -/
structure HistRecord where
  bins : Sparse Nat
  steps : Nat
  sat : Bool
deriving DecidableEq, Repr

/-- Progress of a coil pass (R142, R143): coil, per (origin, bead index) flits accepted, and the flits sent. -/
structure CoilPass where
  coil : Nat
  /-- flits of each origin, in order -/
  flits : Sparse (List (List Byte))
  /-- flits accepted, keyed origin·4096 + bead index -/
  accepted : Sparse Nat
deriving DecidableEq, Repr

/-- Run-ahead deliveries of one list for a waiting command: the command, the batch slot it was planned for, the list and
the positions delivered (R76, R79). -/
structure AheadList where
  cid : Nat
  slot : Nat
  l : IndexList
  filled : List Nat
deriving DecidableEq, Repr

/-- An admitted firing (R37). -/
structure Firing where
  handle : Nat
  part : Nat
  img : Image
  status : FiringStatus
  /-- no command is taken: a withdrawal is accepted (R43, R225) -/
  withdrawing : Bool
  step : Option Step
  /-- steps since entry or the last swap (R421), and since admission (R359) -/
  stepNo : Nat
  stepsRun : Nat
  /-- a pending swap: the command, image B and its pin table (R42, R272) -/
  swap : Option (Nat × Image × List PinPage)
  rules : List RuleState
  /-- keyed frame·16 + unit -/
  hist : Sparse HistRecord
  /-- the last step's counts, which HIST_READ sees in the records and the gradient rules do not (R190, R201, R202) -/
  late : Sparse HistRecord
  pins : List PinPage
  acct : Option Nat
  /-- history blocks released at the last boundary and not free until the step ends (R219) -/
  releasing : List Nat
  /-- slots and history blocks of sequences whose last step has ended or that timed out, and that leave at the next step boundary
  (R218, R221, R225) -/
  leaving : List (Nat × List Nat)
  coils : List CoilPass
  /-- mismatch history: rod and the step count at its last mismatch (R424) -/
  mismatches : List (RodId × Nat)
  /-- pair events kept for the next step (R264) -/
  keptEvents : List (BeadId × Nat)
  ahead : List AheadList
  /-- lists of the gather plan whose index lists the running step has sent (R59, R482) -/
  sent : List Nat
  /-- by frame, the tables that the firing's running step still uses, where a COMMIT has changed them since (R39) -/
  oldTables : Sparse (Sparse Table)
deriving DecidableEq, Repr

/-! ## Commands in flight -/

/-- The fields of a descriptor (R296), parsed. -/
structure Desc where
  opcode : Nat
  flags : BitVec 8
  tag : BitVec 16
  timeoutUs : Nat
  waitFence : Nat
  signalFence : Nat
  waitValue : Word32
  signalValue : Word32
  chainAddr : Word64
  op0 : Word64
  op1 : Word64
  op2 : Word64
  validity : Word64
  reserved : Bool
deriving DecidableEq, Repr

/-- Where a command stands between acceptance and completion. -/
inductive CmdPhase where
  /-- waits for its fence (R303) -/
  | fence
  /-- waits for its parameter block (R302) -/
  | params
  /-- may start -/
  | ready
  /-- FIRING_RUN: waits for a step; also WAITING (R216) -/
  | waiting
  /-- PENDING sequence (R216) -/
  | pendingSeq
  /-- in a running step, in a batch slot; JOINED between steps (R216) -/
  | inSlot (slot : Nat)
  /-- its read of operands faulted; it starts again when the fault is resolved (R481) -/
  | faultWait
  /-- has started and holds engines or waits for a kiln action -/
  | busy
  /-- its timeout expired; engines drain (R306) -/
  | draining
deriving DecidableEq, Repr

/-- A page that MEM_PREFETCH is to copy and switch (R250): its address, where its leaf lies, its size, the leaf's word when
the command started, and the target: a 64 KiB page number of the destination's memory. -/
structure PageMove where
  va : Nat
  leaf : Place
  size : Nat
  word : Nat
  /-- LOC and FRAME of the destination -/
  loc : Nat
  frame : Nat
  target : Nat
deriving DecidableEq, Repr

/-- A command in flight (R291, R298). -/
structure Cmd where
  id : Nat
  port : Nat
  ring : Nat
  seq : BitVec 16
  d : Desc
  chained : Bool
  depth : Nat
  phase : CmdPhase
  op0 : Word64
  op1 : Word64
  op2 : Word64
  /-- a step of it met a named stack that was at band 2 since its acceptance (R47, R49) -/
  atRisk : Bool
  /-- frames whose stack has been at band 2 at any moment since its acceptance (R47, R49) -/
  hot : BitVec 20
  /-- an earlier step of the sequence faulted or tripped (R223) -/
  faulted : Bool
  tripped : Bool
  /-- abandoned once (R427) -/
  abandoned : Bool
  /-- q at acceptance (R301) -/
  q : Nat
  /-- steps run; for a JOINED sequence STEP of the next step (R217) -/
  steps : Nat
  blocks : List Nat
  /-- operations outstanding, applied and discarded (CARRY_SUBMIT) or pages done (MEM_PREFETCH) -/
  outstanding : Nat
  applied : Nat
  discarded : Nat
  /-- firings whose running steps must end before completion (R93) -/
  steps0 : List Nat
  /-- bursts that must have gone to the twin, or be acknowledged by it, before completion (R93) -/
  copied : List Unit64
  result : Word64
  /-- EPOCH of the port down that the command lived through (R336, R340) -/
  down : Option (BitVec 16)
  lostOutput : Bool
  lostRead : Bool
  /-- pages that a MEM_PREFETCH has still to switch (R250) -/
  targets : List PageMove
  /-- bytes of the operands read and dealt with (R481) -/
  done : Nat
  /-- reads from windows of other modules: the pages asked for, whether one was answered otherwise than OK, and the bytes that
  have come (R378, R481) -/
  asked : List Nat
  remoteBad : Bool
  buf : Mem
deriving DecidableEq, Repr

/-- The fields of a completion record (R308); CODE has four bits (R6). -/
structure CplRecord where
  tag : BitVec 16
  seq : BitVec 16
  code : BitVec 4
  chained : Bool
  detail : BitVec 8
  depth : BitVec 8
  opcode : BitVec 8
  result : Word64
  fetched : BitVec 16
  elapsedUs : Word32
deriving DecidableEq, Repr

/-- A fault record or overflow marker record (R282). -/
structure FaultRec where
  kind : Nat
  access : Nat
  kiln : Bool
  mixed : Bool
  faultId : Nat
  addr : Word64
  engine : Nat
  handle : Nat
  position : Nat
  overflows : Nat
deriving DecidableEq, Repr

/-- What a port's transmit queue holds (R27, R336): output writes of a command, the 32 B completion record of a command
(R308, R310), a 64 B fault record with its fields (R282; the module keeps them until the write is acknowledged), each with its
host bus address, and the data of a window read. -/
inductive HostWrite where
  | output (cid addr : Nat) (data : List Byte)
  | completion (cid addr : Nat) (data : List Byte)
  | fault (addr : Nat) (data : List Byte) (r : FaultRec)
  | windowRead (data : List Byte) (poison : Bool)
deriving DecidableEq, Repr

/-- A completed command whose record is not known to be acknowledged (R336, R340). -/
structure Unacked where
  cmd : Cmd
  record : CplRecord
deriving DecidableEq, Repr

/-! ## Rings, ports, partitions -/

/-- A ring (R288 to R309). -/
structure Ring where
  descBase : BitVec 52
  cplBase : BitVec 52
  dbAddr : BitVec 58
  enable : Bool
  log2 : BitVec 4
  /-- 0 OFF, 1 IDLE, 2 FETCHING, 3 AWAIT, 4 DRAINING -/
  state : Nat
  badTail : Bool
  fetchSeq : BitVec 16
  inflight : Nat
  awaits : Nat
  cplPos : Nat
  /-- completion records that wait for space, oldest first (R309) -/
  held : List (Nat × CplRecord)
  /-- nudge epoch, and the epoch recorded by arm() (R294, R300) -/
  nudges : Nat
  armed : Nat
  /-- CXL: the line is held in shared bias; a snoop has taken it since arm() (R293, R300) -/
  lineHeld : Bool
  snooped : Bool
  /-- DESC_TAIL and CPL_HEAD last read (R292) -/
  tail : BitVec 16
  cplHead : BitVec 16
  /-- invalid reads of the descriptor at FETCH_SEQ (R300) -/
  tries : Nat
  /-- a descriptor read is due (rather than a wait of 1 µs) -/
  fetchDue : Bool
  /-- valid descriptors read and not accepted yet (R297) -/
  fetched : List RawDesc
  /-- chain descriptors' parents that have completed: address, parent SEQ, depth (R304) -/
  chains : List (Word64 × BitVec 16 × Nat)
deriving DecidableEq, Repr

/-- A window access that waits for a page switch (R327) or for units of the next period (R353): a read of `len` bytes, or, with
`len` 0, a write of the data. -/
structure WinWait where
  va : Nat
  data : List Byte
  len : Nat
  /-- errors that a read's bursts show when it is served (R240) -/
  found : List BurstFound
deriving DecidableEq, Repr

/-- A host port (R321 to R344). -/
structure Port where
  /-- 0 DOWN, 1 DETACHED, 2 ATTACHED, 3 RETRAINING -/
  state : Nat
  /-- STATE to return to after RETRAINING -/
  beforeRetrain : Nat
  cxl : Bool
  flit : Bool
  speed : BitVec 4
  width : BitVec 5
  epoch : BitVec 16
  winBase : BitVec 24
  /-- the base of a pending slide (R326) -/
  slideTo : Option (BitVec 24)
  biasRefused : Bool
  /-- shared window pages (R329) -/
  shared : List Nat
  /-- pages under back-invalidation (R330) -/
  clearing : List Nat
  /-- shared pages whose BIRsp a waiting engine has received (R329) -/
  answered : List Nat
  winErrs : Nat
  shadowHead : BitVec 14
  shadowUnread : Nat
  shadowTail : BitVec 14
  /-- entries written since the module's last reset (R340) -/
  shadowCount : Nat
  noRing : Nat
  setupErrs : Nat
  rings : Sparse Ring
  tx : List HostWrite
  /-- completed commands whose record is in the transmit queue -/
  unacked : List Unacked
  /-- window accesses that wait -/
  winWaits : List WinWait
  /-- MSI-X vectors sent, oldest first (R325) -/
  msix : List Nat
  /-- the ring whose descriptor was accepted last (R299) -/
  lastRing : Nat
deriving DecidableEq, Repr

/-- A waiter of a fault entry or a stalled fault (R277 to R280). -/
inductive Waiter where
  | channel (r : RodId) (handle : Nat)
  | command (cid : Nat)
deriving DecidableEq, Repr

/-- An open fault entry (R277, R278). -/
structure FaultEntry where
  id : Nat
  kind : Nat
  access : Nat
  mixed : Bool
  key : Nat
  addr : Word64
  engine : Nat
  handle : Nat
  position : Nat
  waiters : List Waiter
  /-- a FAULT_RESOLVE or FAULT_ABORT has been accepted for it (R284) -/
  answered : Bool
deriving DecidableEq, Repr

/-- A stalled fault (R279). -/
structure Stalled where
  kind : Nat
  access : Nat
  key : Nat
  addr : Word64
  engine : Nat
  handle : Nat
  position : Nat
  waiter : Waiter
deriving DecidableEq, Repr

/-- A partition's fault queue and ring (R277 to R283, R287). -/
structure FaultQueue where
  ringBase : BitVec 52
  ringHead : Nat
  entries : List FaultEntry
  stalled : List Stalled
  marker : Bool
  overflows : Nat
  nextId : Nat
  /-- FAULT_ID of the last entry record written (R282) -/
  lastId : Nat
  /-- records that wait for ring space or for ATTACH (R283) -/
  waiting : List FaultRec
  /-- records written since reset: the next ring position is this modulo 1,025 -/
  written : Nat
  /-- records passed by FAULT_RING_HEAD -/
  passed : Nat
deriving DecidableEq, Repr

/-- The registers of a partition bank (R408, R452). -/
structure BankRegs where
  shadowBase : BitVec 36
  acctBase : BitVec 38
  poolBase : BitVec 38
  poolBlocks : Nat
  serveOnly : Bool
  ptFrame : BitVec 5
  ptOffset : BitVec 48
  /-- WIN_CARRY_ALLOC per frame -/
  winCarry : Sparse Nat
  listBase : BitVec 46
  listCount : Nat
deriving DecidableEq, Repr

/-- A change list entry (R410). -/
structure GwEntry where
  struct : Nat
  op : Nat
  index : Nat
  frames : BitVec 32
  reserved : Bool
  data : List Byte
deriving DecidableEq, Repr

/-- Bank state shown by GW_STATUS and MB_STATUS (R411, R465). -/
structure BankState where
  /-- 0 EMPTY, 1 WRITTEN, 2 CHECKING, 3 PASSED, 4 FAILED, 5 STALE, 6 COMMITTING -/
  state : Nat
  lateWrite : Bool
  reason : Nat
  entry : Nat
  /-- the change list copied by CHECK (R412) -/
  list : List GwEntry
  /-- frames that have not applied the COMMIT yet (R414) -/
  left : List Nat
  /-- the COMMIT command of the bank, if a command issued it -/
  cid : Option Nat
  /-- the twin has still to apply the changes that the bank carries to it (R415) -/
  twin : Bool
deriving DecidableEq, Repr

/-- An accounting record (R359). -/
structure AcctRecord where
  firingId : Word64
  handle : Nat
  state : Nat
  kind : Nat
  steps : Nat
  commands : Nat
  sum : Nat
  max : Nat
  preempts : Nat
  last : Nat
deriving DecidableEq, Repr

/-- Advice recorded by MEM_ADVISE (R251). -/
structure Advice where
  kind : Nat
  rows : Bool
  table : Nat
  start : Nat
  count : Nat
  tier : Nat
  frame : Nat
deriving DecidableEq, Repr

/-- A partition (R345 to R366). -/
structure Part where
  frames : BitVec 20
  share : Nat
  readFrom : BitVec 4
  /-- keyed frame·10 + activity -/
  alloc : Sparse Nat
  /-- keyed by activity -/
  holds : Sparse Nat
  capStatus : BitVec 20
  live : BankRegs
  staged : BankRegs
  bank : BankState
  acctNoSlot : Nat
  /-- keyed by record number -/
  acct : Sparse AcctRecord
  poolFree : Nat
  /-- free blocks of the history pool, in the allocator's order (R218) -/
  blocks : List Nat
  deferrals : Nat
  rangeTrips : Nat
  mismatches : Nat
  abandoned : Nat
  lastTrip : Word64
  shadowLast : Word32
  testRod : BitVec 16
  testState : Nat
  /-- the rod that the running test was started on: frame, group, physical rod -/
  testOf : Option (Nat × Nat × Nat)
  testRefused : Bool
  rodCe : Nat
  faults : FaultQueue
  /-- FENCE_0 to FENCE_255 (R303) -/
  fences : Sparse Word32
  advice : List Advice
deriving DecidableEq, Repr

/-! ## Module-wide state -/

/-- The keep-alive domain and the protection registers (R392, R400, R416). -/
structure KeepAlive where
  por : Bool
  resetPin : Bool
  perst : BitVec 4
  kilnWdt : Bool
  swFull : Bool
  frame : Bool
  thermal : Bool
  twinFence : Bool
  clkLoss : Bool
  kaLost : Bool
  countModule : Nat
  countFrame : Nat
  wdtFrames : BitVec 20
  fenceFrames : BitVec 20
  bootHold : Bool
deriving DecidableEq, Repr

/-- Where the boot sequencer stands (R389, R393, R396, R397). -/
inductive BootPhase where
  /-- no supply but perhaps the keep-alive domain (R472) -/
  | off
  /-- at boot step 1, waiting for the clock (R389) -/
  | step1
  /-- held at the end of step 3 by an asserted source or BOOT_HOLD (R393, R400) -/
  | step3
  /-- halted at the end of step 5: no port frame has a verified kiln (R397) -/
  | step5
  /-- released (step 10) -/
  | run
deriving DecidableEq, Repr

/-- Power, clock, sources and fuses. -/
structure Sequencer where
  phase : BootPhase
  v48 : Bool
  aux : Bool
  supercap : Bool
  clock : Bool
  kaUp : Bool
  resetPin : Bool
  thermal : Bool
  /-- the twin-fence input on TW0 and on TW4 (R468) -/
  fenceIn : BitVec 2
  perst : BitVec 4
  /-- role fuse map: bit n set when port n's frame is the higher candidate (R8) -/
  roleFuse : BitVec 4
  svnFloor : Word32
  keyFuseOff : BitVec 4
  protLocked : Bool
  protMinSvn : Word32
  protKeyDisable : BitVec 4
  /-- the keep-alive domain has come up and no power-on reset has run since (R392) -/
  fresh : Bool
  /-- a thermal trip whose reset has not ended: THERMTRIP# is low (R399, R469) -/
  tripped : Bool
deriving DecidableEq, Repr

/-- The twin-fence input is asserted: on TW0 or on TW4 (R468). -/
def Sequencer.twinFence (q : Sequencer) : Bool := decide (q.fenceIn ≠ 0)

/-- The kiln master (R19, R20, R460). -/
structure Master where
  frame : Nat
  none : Bool
  moving : Bool
  /-- the frame that takes the role -/
  successor : Option Nat
deriving DecidableEq, Repr

/-- The twin (R101 to R103, R382 to R387). -/
structure Twin where
  peer : BitVec 16
  far : Bool
  paired : Bool
  band2 : Bool
  /-- 0 none, 1 primary, 2 secondary, 3 rejoining -/
  role : Nat
  statusFar : Bool
  /-- frames that the twin reports at band 2: PEER_AT_RISK (R384) -/
  peerHot : BitVec 20
  epoch : BitVec 16
  peerId : BitVec 16
  /-- the role in the twin's last HELLO -/
  peerRole : Nat
  helloSeen : Bool
  /-- epoch of the journal's last EPOCH_START (R382) -/
  journalEpoch : BitVec 16
  mirror : Sparse Nat
  fwdLost : Nat
  repairs : Nat
  silence : Bool
  fenceOut : Bool
  /-- forwarded operations not acknowledged: number, frame, operation, source (R96, R103) -/
  fwds : List (Nat × Nat × CarryOp × CarrySource)
  nextFwd : Nat
  /-- highest forward number applied here (R103) -/
  fwdApplied : Nat
  /-- forward numbers applied here out of order, above the highest that FWD_ACK may name (R103) -/
  fwdDone : List Nat
  /-- a planned handover is draining: the command, if a command asked for it (R102) -/
  handover : Option (Option Nat)
  /-- twin messages sent: frame, code, words (R381) -/
  sent : List (Nat × Nat × List Nat)
  /-- journal records, checkpoints and cold-row extents sent to the twin's saggars (R104, R380) -/
  copies : List (Nat × TwinRec)
  /-- frames that the primary has reported DIRTY since the rejoin began (R100) -/
  joinSeen : BitVec 20
deriving DecidableEq, Repr

/-- A bay and its cartridge (R431 to R438). -/
structure BayState where
  state : Nat
  lifeWarn : Bool
  reason : Nat
  cart : Option Cartridge
  /-- bytes written to the cartridge, by the module's count (R434) -/
  written : Nat
  /-- the same as the boot flash holds it: brought up to date every 64 GiB and at removal (R434) -/
  saved : Nat
  serial : BitVec 128
  /-- records sent to the saggar and not acknowledged, oldest first (R437) -/
  sent : List JournalRec
  /-- records the saggar holds (R104) -/
  held : List JournalRec
  /-- cold rows by first extent (R247) -/
  rows : Sparse RowImage
  /-- what freed extents still hold until they are written again (R109) -/
  stale : Sparse RowImage
  /-- first extents of the rows that a rebuilding cartridge has still to receive from the twin's copy (R433, R436) -/
  lacks : List Nat
  /-- the latest checkpoint of each shard that the bay holds (R108) -/
  ckpts : List Checkpoint
deriving DecidableEq, Repr

/-- An outstanding transaction of a channel 3 mover (R377, R378); a read's data goes to a copy's destination. -/
structure TxnOut where
  tid : BitVec 16
  handle : Nat
  rod : RodId
  into : Option MvCopy
  /-- the partition and the device virtual page through whose translation it goes (R274) -/
  part : Nat
  page : Nat
deriving DecidableEq, Repr

/-- The fabric (R374 to R378, R387). -/
structure Fabric where
  moduleId : BitVec 16
  idSet : Bool
  timeoutUs : Nat
  noRoute : Nat
  timeouts : Nat
  /-- VALID route entries, by destination (R375) -/
  routes : Sparse Word64
  windows : Sparse Window
  /-- pin table entries of the inbound windows (R285): window, pages -/
  winPins : Sparse (List PinPage)
  outstanding : List TxnOut
  nextTid : BitVec 16
deriving DecidableEq, Repr

/-- Settings of the module bank (R408, R463). -/
structure ModuleRegs where
  sweepSeconds : Nat
  stageMib : Nat
  ckptGib : Nat
  scrubHours : Nat
  idReg : Word64
  twinCfg : Word64
  twinPolicy : Word64
  fabricUs : Nat
  /-- the layout record bytes that differ from the layout in force (R345) -/
  layout : Sparse Byte
deriving DecidableEq, Repr

/-- SMBus management and the alert (R474 to R477). -/
structure Smbus where
  result : Nat
  alert : Bool
  /-- what has raised the alert since the last alert response: bit 0 MSI-X vector 1, 1 KILN_MASTER, 2 a kiln absent, 3 CORRUPT, 4 a
  completed FW_STAGE or module bank COMMIT (R477) -/
  sources : BitVec 5
  data : Word64
  /-- KILN_MASTER as the last STATUS read returned it -/
  masterShown : Word64
  /-- the alert sources as the last STATUS read returned them (R475) -/
  sourcesShown : BitVec 5
  /-- calibration bytes staged by CAL_WRITE (R440) -/
  calStaged : List Byte
  /-- an MB_CHECK (false) or MB_COMMIT (true) that waits while the role of kiln master moves (R20) -/
  waiting : Option Bool
deriving DecidableEq, Repr

/-- The state of the module. -/
structure State where
  /-- commands waiting, first in first out -/
  pending : List Instr
  mem : Memory
  frames : Sparse Frame
  beads : Sparse Bead
  rods : Sparse Rod
  ports : Sparse Port
  parts : Sparse Part
  firings : List Firing
  nextHandle : Nat
  /-- commands in flight, in acceptance order -/
  cmds : List Cmd
  nextCmd : Nat
  master : Master
  ka : KeepAlive
  seqr : Sequencer
  twin : Twin
  bayA : BayState
  bayB : BayState
  bayRefused : Bool
  /-- life counters of the last 16 cartridges, by serial (R434) -/
  lives : List (BitVec 128 × Nat)
  gapFrames : BitVec 20
  ckptLate : BitVec 20
  tierfUnreadable : Nat
  fabric : Fabric
  mb : BankState
  mbLive : ModuleRegs
  mbStaged : ModuleRegs
  mbEntries : List GwEntry
  calReplaced : Bool
  /-- the set in boot flash, once one has been committed (R440); empty: the factory's (log 2) -/
  calSet : List Byte
  calCorrupt : BitVec 20
  calGeneration : Word32
  /-- kilns that an FW_ACTIVATE has still to restart, in order (R407) -/
  activating : List Nat
  smbus : Smbus
  /-- last GENERATION held for each TABLE_ID since the last module-scope reset (R50) -/
  lastGen : Sparse Nat
  /-- slots that a completed ROW_WRITE holds reserved (R484), old slots not yet reusable (R95) -/
  slotsReserved : List SlotUse
  slotsOld : List SlotUse
  /-- shards live or restored since the last module-scope reset: table and shard (R109) -/
  restored : List (Nat × Nat)
  /-- carry operations not accepted yet, oldest first (R102, R353) -/
  heldOps : List HeldOp
  /-- the model's own counter of free values (log 5, 12, 13, 14); no statement rests on its value -/
  free : Nat
deriving DecidableEq, Repr

/-! ## Reset values (INVENTORY.md, State; log 1, 2, 3) -/

/-- All memory zero, with valid check bytes (R396 step 8; log 2, 3). -/
def Memory.reset : Memory where
  dram := []
  side := []
  scratch := []
  pool := []
  poisoned := []
  lost := []
  restoring := []
  retired := []
  errors := []

/-- A context before any step (log 2). -/
def Ctx.reset : Ctx where
  regs := []
  idx := 0
  loops := []
  ended := true
  waiting := none
  passSplit := none
  tieSplit := none
  known := ⟨[], []⟩

/-- No chain running; chaining buffers empty (R162). -/
def VecEngine.reset : VecEngine where
  chains := []
  buffers := []
  done := []

/-- An empty coil port. -/
def CoilPort.reset : CoilPort where
  flits := []
  uses := []
  landed := []

/-- A bead before any step (log 2). -/
def Bead.reset : Bead where
  ctxs := []
  counters := []
  releases := []
  last := 7
  issued := 0
  acc := []
  bankInt := []
  mmas := []
  vec := VecEngine.reset
  exc := 0
  hist := []
  histSat := []
  ports := []
  injects := []
  filler := []
  mvs := 0

/-- An empty mover channel. -/
def MvChannel.reset : MvChannel where
  reqs := []
  stalled := false

/-- A rod with empty channels. -/
def Rod.reset : Rod where
  chans := []

/-- A gather unit that holds no list. -/
def GatherUnit.reset : GatherUnit where
  lists := []
  buffer := []
  nextNum := 0
  recent := []

/-- The boot ROM's cone record (R442), which the model takes as the calibration set in flash (log 2). -/
def Cone.reset : Cone where
  cap := 95
  speed := 1000
  target := 700
  rate := 0
  mv := 480
  overridden := false
  excess := 0
  slow := 0
  tableRate := List.replicate 28 0 ++ [700]
  tablePower := List.replicate 29 950
  nextRate := none
  nextPower := none

/-- Memory status after training (R458). -/
def FrameMem.reset : FrameMem where
  band := 0
  lost := false
  missed := 0
  action := 0
  chOut := []
  pkgOut := []
  mapState := 0
  choosing := []

/-- Frame counters (R459). -/
def Counters.reset : Counters := ⟨0, 0, 0, 0, 0, 0, 0, 0, 0, 0, 0, 0, 0⟩

/-- A rod group as shipped: positions 0 to 124 on their own rods, rods 125 to 127 spare (R11; log 2). -/
def Group.reset : Group where
  map := []
  missing := []
  spares := [125, 126, 127]
  failed := []
  due := []
  testing := []
  missed := []

/-- No stream record sent or received (R98). -/
def Stream.reset : Stream where
  nextSeq := 0
  unacked := []
  dirty := []
  resent := []
  written := 0
  digests := []
  swept := []
  events := []

/-- An empty staging ring of the size in force (R104, R463). -/
def Journal.reset : Journal where
  nextJseq := 0
  ring := []
  sent := 0
  ringBytes := 0
  sizeMib := 2048
  lost := none
  sinceCkpt := 0
  ckptLeft := none
  gapShards := []

/-- IDENT fields all 0. -/
def PeerIdent.zero : PeerIdent := ⟨0, 0, 0, false⟩

/-- A link that is down (R387). -/
def Link.reset : Link where
  state := 0
  peer := PeerIdent.zero
  replays := 0
  retrains := 0
  fecCorr := 0
  crcErrs := 0
  nextFseq := 0
  lastGood := 0xFFF
  nakSent := false
  replay := []
  credits := []
  queue := []
  wire := []
  naks := []
  owed := []
  received := []
  lanes := 0

/-- A slot holding verified firmware of security version 0 (log 2). -/
def FwSlot.valid : FwSlot := ⟨1, 0, 0, 0, ⟨0x4E565250, 1, 1, 0, 2088960, 0⟩⟩

/-- An empty slot. -/
def FwSlot.empty : FwSlot := ⟨0, 0, 0, 0, ⟨0, 0, 0, 0, 0, 0⟩⟩

/-- FW_STATUS_f at its Reset column (R416). -/
def FwShown.reset : FwShown := ⟨0, 0, false, false, false, 0, 0, 0⟩

/-- A kiln that runs slot A (log 2). -/
def Kiln.reset : Kiln where
  slotA := FwSlot.valid
  slotB := FwSlot.empty
  preferB := false
  runningB := false
  absent := false
  verified := true
  shown := FwShown.reset
  rods := 1875

/-- Counters before the first period (log 2). -/
def TallyCtr.reset : TallyCtr := ⟨[], [], [], [], [], 0, false, []⟩

/-- A frame after boot. -/
def Frame.reset : Frame where
  fenced := false
  counters := Counters.reset
  mem := FrameMem.reset
  cone := Cone.reset
  groups := []
  kiln := Kiln.reset
  gather := []
  promo := []
  advice := []
  carry := []
  cold := []
  tables := []
  mirrored := []
  stream := Stream.reset
  streamUp := false
  journal := Journal.reset
  links := []
  tally := TallyCtr.reset
  actions := []
  owed := []
  tlb := []
  shardGib := 0
  cal := ⟨false, [], [], [], []⟩

/-- A ring at its Reset column (R289). -/
def Ring.reset : Ring where
  descBase := 0
  cplBase := 0
  dbAddr := 0
  enable := false
  log2 := 6
  state := 0
  badTail := false
  fetchSeq := 0
  inflight := 0
  awaits := 0
  cplPos := 0
  held := []
  nudges := 0
  armed := 0
  lineHeld := false
  snooped := false
  tail := 0
  cplHead := 0
  tries := 0
  fetchDue := false
  fetched := []
  chains := []

/-- A port at its Reset column: DETACHED (R344). -/
def Port.reset : Port where
  state := 1
  beforeRetrain := 1
  cxl := false
  flit := false
  speed := 0
  width := 0
  epoch := 0
  winBase := 0
  slideTo := none
  biasRefused := false
  shared := []
  clearing := []
  answered := []
  winErrs := 0
  shadowHead := 0
  shadowUnread := 0
  shadowTail := 0
  shadowCount := 0
  noRing := 0
  setupErrs := 0
  rings := []
  tx := []
  unacked := []
  winWaits := []
  msix := []
  lastRing := 63

/-- A fault queue with no entry open; FAULT_ID counts from 1 (R282, R287). -/
def FaultQueue.reset : FaultQueue where
  ringBase := 0
  ringHead := 0
  entries := []
  stalled := []
  marker := false
  overflows := 0
  nextId := 1
  lastId := 0
  waiting := []
  written := 0
  passed := 0

/-- Bank registers at their Reset columns (R213, R287, R344, R366, R416). -/
def BankRegs.reset : BankRegs where
  shadowBase := 0
  acctBase := 0
  poolBase := 0
  poolBlocks := 0
  serveOnly := false
  ptFrame := 0
  ptOffset := 0
  winCarry := []
  listBase := 0
  listCount := 0

/-- An EMPTY bank (R411, R416). -/
def BankState.reset : BankState where
  state := 0
  lateWrite := false
  reason := 0
  entry := 0
  list := []
  left := []
  cid := none
  twin := false

/-- A free accounting record (R359). -/
def AcctRecord.free : AcctRecord := ⟨0, 0, 0, 0, 0, 0, 0, 0, 0, 0⟩

/-- A partition that does not exist: no frames (R346). -/
def Part.none : Part where
  frames := 0
  share := 0
  readFrom := 0
  alloc := []
  holds := []
  capStatus := 0
  live := BankRegs.reset
  staged := BankRegs.reset
  bank := BankState.reset
  acctNoSlot := 0
  acct := []
  poolFree := 0
  blocks := []
  deferrals := 0
  rangeTrips := 0
  mismatches := 0
  abandoned := 0
  lastTrip := 0
  shadowLast := 0
  testRod := 0
  testState := 0
  testOf := Option.none
  testRefused := false
  rodCe := 0
  faults := FaultQueue.reset
  fences := []
  advice := []

/-- ALLOC_n_f_a after power-on reset (R350), keyed f·10 + a: coil, matrix, vector and mover whole on the partition's own
frames; a quarter of gather, carry, host DMA, link and migration on every frame; no scrub. -/
def Part.resetAlloc (n : Nat) : Sparse Nat :=
  (List.range 20).flatMap fun f =>
    [(f * 10, 100000), (f * 10 + 1, 100000)] ++
    (if f / 5 = n then
      [(f * 10 + 2, 525000000), (f * 10 + 3, 32812500), (f * 10 + 4, 131250000), (f * 10 + 5, 46875000)]
     else []) ++
    [(f * 10 + 6, 100000), (f * 10 + 7, 18750), (f * 10 + 8, 100000)]

/-- Partition `n` of the four of R350: frames 5n to 5n + 4, SHARE 64, READ_FROM 0. -/
def Part.reset (n : Nat) : Part :=
  { Part.none with
    frames := 0x1F#20 <<< (5 * n)
    share := 64
    alloc := Part.resetAlloc n }

/-- RESET_CAUSE to BOOT_HOLD after loss of the keep-alive domain (R416). -/
def KeepAlive.reset : KeepAlive where
  por := true
  resetPin := false
  perst := 0
  kilnWdt := false
  swFull := false
  frame := false
  thermal := false
  twinFence := false
  clkLoss := false
  kaLost := true
  countModule := 0
  countFrame := 0
  wdtFrames := 0
  fenceFrames := 0
  bootHold := false

/-- Released, every input valid, the protection set committed (log 1, 2). -/
def Sequencer.reset : Sequencer where
  phase := .run
  v48 := true
  aux := true
  supercap := true
  clock := true
  kaUp := true
  resetPin := false
  thermal := false
  fenceIn := 0
  perst := 0
  roleFuse := 0
  svnFloor := 0
  keyFuseOff := 0b1100
  protLocked := true
  protMinSvn := 0
  protKeyDisable := 0b1100
  fresh := false
  tripped := false

/-- The kiln master is port 0's frame (R19; log 2). -/
def Master.reset : Master := ⟨0, false, false, Option.none⟩

/-- No twin; TWIN_STATUS at its Reset column (R387). -/
def Twin.reset : Twin where
  peer := 0
  far := false
  paired := false
  band2 := false
  role := 0
  statusFar := false
  peerHot := 0
  epoch := 0
  peerId := 0
  peerRole := 0
  helloSeen := false
  journalEpoch := 0
  mirror := []
  fwdLost := 0
  repairs := 0
  silence := false
  fenceOut := false
  fwds := []
  nextFwd := 1
  fwdApplied := 0
  fwdDone := []
  handover := none
  sent := []
  copies := []
  joinSeen := 0

/-- An absent cartridge (R438). -/
def BayState.reset : BayState where
  state := 0
  lifeWarn := false
  reason := 0
  cart := none
  written := 0
  saved := 0
  serial := 0
  sent := []
  held := []
  rows := []
  stale := []
  lacks := []
  ckpts := []

/-- No route, no window, nothing outstanding (R387). -/
def Fabric.reset : Fabric where
  moduleId := 0
  idSet := false
  timeoutUs := 1000
  noRoute := 0
  timeouts := 0
  routes := []
  windows := []
  winPins := []
  outstanding := []
  nextTid := 0

/-- Settings of the module bank at their Reset columns (R387, R463). -/
def ModuleRegs.reset : ModuleRegs where
  sweepSeconds := 900
  stageMib := 2048
  ckptGib := 8
  scrubHours := 24
  idReg := 0
  twinCfg := 0
  twinPolicy := 0
  fabricUs := 1000
  layout := []

/-- Nothing read or staged over SMBus yet (log 2). -/
def Smbus.reset : Smbus := ⟨0, false, 0, 0, 0, 0, [], none⟩

/-- The module right after reset: every register at its Reset column, nothing admitted, the queue empty; unpaired, so it has taken
the primary role (R383; log 1). -/
def State.reset : State where
  pending := []
  mem := Memory.reset
  frames := []
  beads := []
  rods := []
  ports := []
  parts := [(0, Part.reset 0), (1, Part.reset 1), (2, Part.reset 2), (3, Part.reset 3)]
  firings := []
  nextHandle := 1
  cmds := []
  nextCmd := 0
  master := Master.reset
  ka := KeepAlive.reset
  seqr := Sequencer.reset
  twin := { Twin.reset with role := 1 }
  bayA := BayState.reset
  bayB := BayState.reset
  bayRefused := false
  lives := []
  gapFrames := 0
  ckptLate := 0
  tierfUnreadable := 0
  fabric := Fabric.reset
  mb := BankState.reset
  mbLive := ModuleRegs.reset
  mbStaged := ModuleRegs.reset
  mbEntries := []
  calReplaced := false
  calSet := []
  calCorrupt := 0
  calGeneration := 0
  activating := []
  smbus := Smbus.reset
  lastGen := []
  slotsReserved := []
  slotsOld := []
  restored := []
  heldOps := []
  free := 0

end Sys2Proof.Machine
end

