-- ==== Sys2Proof/Machine/Units.lean ====
section
/-! DEFINITION. Which unit numbers exist (R7, R10, R11, R121, R288, R346, R435), and the keys that sparse stores use. -/

namespace Sys2Proof

/-- The 20 frames (R7). -/
def frameOk (f : Nat) : Bool := decide (f < 20)

/-- The four host ports (R8, R16). -/
def portOk (p : Nat) : Bool := decide (p < 4)

/-- The 64 rings of a port (R288). -/
def ringOk (p r : Nat) : Bool := portOk p && decide (r < 64)

/-- The four links of a frame (R387). -/
def linkOk (f k : Nat) : Bool := frameOk f && decide (k < 4)

/-- The 16 gather units of a frame (R7). -/
def gatherOk (f u : Nat) : Bool := frameOk f && decide (u < 16)

/-- The 12 carry units of a frame (R7). -/
def carryOk (f u : Nat) : Bool := frameOk f && decide (u < 12)

/-- A channel or package that exists (R226, R229, R244). -/
def MemUnit.ok : MemUnit → Bool
  | .channel c => decide (c < 32)
  | .package p => decide (p < 4)

/-- A rod by logical position: 15 groups of 125 (R11, R121). -/
def RodId.ok (r : RodId) : Bool := frameOk r.frame && decide (r.group < 15) && decide (r.pos < 125)

/-- A bead of a rod, 0 to 7 (R121). -/
def BeadId.ok (b : BeadId) : Bool :=
  frameOk b.frame && decide (b.group < 15) && decide (b.pos < 125) && decide (b.bead < 8)

/-- A bead and one of its eight contexts (R110). -/
def ctxOk (b : BeadId) (c : Nat) : Bool := b.ok && decide (c < 8)

/-- A physical rod of a group, 0 to 127 (R11). -/
def physOk (f g p : Nat) : Bool := frameOk f && decide (g < 15) && decide (p < 128)

/-- The rod that holds a bead. -/
def BeadId.rod (b : BeadId) : RodId := ⟨b.frame, b.group, b.pos⟩

/-- Key of a rod in State.rods and, times 64 KiB, of its pool. -/
def RodId.key (r : RodId) : Nat := (r.frame * 15 + r.group) * 125 + r.pos

/-- Key of a bead in State.beads and, times 16 KiB, of its scratch. -/
def BeadId.key (b : BeadId) : Nat := b.rod.key * 8 + b.bead

/-- Bead `i` of a rod. -/
def RodId.beadAt (r : RodId) (i : Nat) : BeadId := ⟨r.frame, r.group, r.pos, i⟩

/-- The eight beads of a rod. -/
def RodId.beadList (r : RodId) : List BeadId := (List.range 8).map r.beadAt

/-- A bead reference as R121 lays it out: FRAME [4:0], GROUP [8:5], POS [15:9], BEAD [18:16]. -/
def BeadId.ofRef (w : Nat) : BeadId := ⟨w % 32, w / 32 % 16, w / 512 % 128, w / 65536 % 8⟩

/-- A rod reference, bits [15:0] of a bead reference (R121, R430). -/
def RodId.ofRef (w : Nat) : RodId := ⟨w % 32, w / 32 % 16, w / 512 % 128⟩

/-- The 16-bit reference of a rod (R121 bits [15:0]). -/
def RodId.toRef (r : RodId) : Nat := r.frame % 32 + r.group % 16 * 32 + r.pos % 128 * 512

/-- The reference of a bead (R121). -/
def BeadId.toRef (b : BeadId) : Nat := b.rod.toRef + b.bead % 8 * 65536

/-- Bytes of a tier of a frame (R226, R229; 1 GB is 10⁹ bytes). -/
def Tier.bytes : Tier → Nat
  | .h => 96000000000
  | .l => 128000000000

/-- Number of a tier where a field numbers it: 0 tier H, 1 tier L (R56, R98). -/
def Tier.num : Tier → Nat
  | .h => 0
  | .l => 1

/-- The tier a number names (R56). -/
def Tier.ofNum (n : Nat) : Tier := if n = 0 then .h else .l

/-- A mode, a rate and a width that a link of the port can come up with (R321 to R323, R344): CXL only in 256B Flit Mode at 32 or
64 GT/s, and 64 GT/s only in Flit Mode. -/
def hostLinkOk (cxl flit : Bool) (speed : BitVec 4) (width : BitVec 5) : Bool :=
  decide (1 ≤ speed.toNat ∧ speed.toNat ≤ 6) && [4, 8, 16].contains width.toNat && (flit || decide (speed ≠ 6)) &&
    (!cxl || (flit && decide (5 ≤ speed.toNat)))

/-- The other bay. -/
def Bay.other : Bay → Bay
  | .a => .b
  | .b => .a

end Sys2Proof
end

