-- ==== Sys2Proof/Machine/Ops.lean ====
section
/-! DEFINITION. The named operations over the state that every meaning shares: reading and writing a frame, bead, rod, port,
ring, partition or firing, saturating counters, free values, and the outcome of a command on a unit that may not exist. -/

namespace Sys2Proof.Machine

/-- The outcome of a command. -/
abbrev Outcome := Host.Outcome State Fault Refusal

/-- A command on units that exist answers the next state; on units that the spec says do not exist it faults (log 16). -/
def within (ok : Bool) (t : State) : Outcome :=
  match ok with
  | true => .next t
  | false => .fault .noSuchUnit

/-! ## Numbers -/

/-- A 32-bit counter that saturates (R459, R451, R462). -/
def sat32 (n : Nat) : Nat := min n 0xFFFFFFFF

/-- A 64-bit counter that saturates (R359, R366). -/
def sat64 (n : Nat) : Nat := min n 0xFFFFFFFFFFFFFFFF

/-- One more, saturating at 32 bits. -/
def inc32 (n : Nat) : Nat := sat32 (n + 1)

/-- Bits [hi:lo] of a number. -/
def bits (w hi lo : Nat) : Nat := w / 2 ^ lo % 2 ^ (hi + 1 - lo)

/-- Bit `i` of a number. -/
def bitAt (w i : Nat) : Bool := Nat.testBit w i

/-- Bit `i` of a mask of frames. -/
def inMask {n : Nat} (m : BitVec n) (i : Nat) : Bool := m.getLsbD i

/-- Set or clear bit `i`. -/
def setBit {n : Nat} (m : BitVec n) (i : Nat) (b : Bool) : BitVec n :=
  if b then m ||| BitVec.ofNat n (2 ^ i) else m &&& ~~~(BitVec.ofNat n (2 ^ i))

/-- The frames of a mask, in ascending order. -/
def maskFrames {n : Nat} (m : BitVec n) : List Nat := (List.range 20).filter (inMask m)

/-- The largest number below `n` that passes. -/
def lastBelow (p : Nat → Bool) : Nat → Option Nat
  | 0 => none
  | n + 1 => if p n then some n else lastBelow p n

/-- 1 for true. -/
def bit (b : Bool) : Nat := if b then 1 else 0

/-! ## Bytes (R2: little-endian) -/

/-- The low `n` bytes of a number, lowest first. -/
def leBytes (n v : Nat) : List Byte := (List.range n).map fun i => BitVec.ofNat 8 (v / 256 ^ i)

/-- The number that bytes spell, lowest first. -/
def leNat : List Byte → Nat
  | [] => 0
  | b :: bs => b.toNat + 256 * leNat bs

/-- Bytes `off` to `off + n − 1` of a buffer as a number; bytes past its end read 0. -/
def fieldAt (bs : List Byte) (off n : Nat) : Nat := leNat ((bs.drop off).take n)

/-- Whether every byte of a range of a buffer is 0 (R3). -/
def zeroAt (bs : List Byte) (off n : Nat) : Bool := decide (fieldAt bs off n = 0)

/-! ## CRC-32 of IEEE 802.3 (R29, R30, R439) -/

/-- One bit of the reflected CRC-32. -/
def crcBit (c : Nat) : Nat := if c % 2 = 1 then (c / 2) ^^^ 0xEDB88320 else c / 2

/-- One byte. -/
def crcByte (c : Nat) (b : Byte) : Nat :=
  crcBit (crcBit (crcBit (crcBit (crcBit (crcBit (crcBit (crcBit (c ^^^ b.toNat))))))))

/-- CRC-32 of a buffer. -/
def crc32 (bs : List Byte) : Nat := (bs.foldl crcByte 0xFFFFFFFF) ^^^ 0xFFFFFFFF

/-! ## Units of the state -/

/-- Frame `f`. -/
def State.frame (s : State) (f : Nat) : Frame := Sparse.read Frame.reset s.frames f

/-- Replace frame `f`. -/
def State.setFrame (s : State) (f : Nat) (x : Frame) : State :=
  { s with frames := Sparse.write Frame.reset s.frames f x }

/-- Change frame `f`. -/
def State.modFrame (s : State) (f : Nat) (g : Frame → Frame) : State := s.setFrame f (g (s.frame f))

/-- A bead. -/
def State.bead (s : State) (b : BeadId) : Bead := Sparse.read Bead.reset s.beads b.key

/-- Replace a bead. -/
def State.setBead (s : State) (b : BeadId) (x : Bead) : State :=
  { s with beads := Sparse.write Bead.reset s.beads b.key x }

/-- Change a bead. -/
def State.modBead (s : State) (b : BeadId) (g : Bead → Bead) : State := s.setBead b (g (s.bead b))

/-- A rod. -/
def State.rod (s : State) (r : RodId) : Rod := Sparse.read Rod.reset s.rods r.key

/-- Replace a rod. -/
def State.setRod (s : State) (r : RodId) (x : Rod) : State :=
  { s with rods := Sparse.write Rod.reset s.rods r.key x }

/-- A mover channel of a rod (R124). -/
def State.chan (s : State) (r : RodId) (c : Nat) : MvChannel := Sparse.read MvChannel.reset (s.rod r).chans c

/-- Replace a mover channel. -/
def State.setChan (s : State) (r : RodId) (c : Nat) (x : MvChannel) : State :=
  s.setRod r { (s.rod r) with chans := Sparse.write MvChannel.reset (s.rod r).chans c x }

/-- Host port `p`. -/
def State.port (s : State) (p : Nat) : Port := Sparse.read Port.reset s.ports p

/-- Replace port `p`. -/
def State.setPort (s : State) (p : Nat) (x : Port) : State :=
  { s with ports := Sparse.write Port.reset s.ports p x }

/-- Change port `p`. -/
def State.modPort (s : State) (p : Nat) (g : Port → Port) : State := s.setPort p (g (s.port p))

/-- Ring `r` of a port. -/
def Port.ring (p : Port) (r : Nat) : Ring := Sparse.read Ring.reset p.rings r

/-- Replace ring `r` of a port. -/
def Port.setRing (p : Port) (r : Nat) (x : Ring) : Port :=
  { p with rings := Sparse.write Ring.reset p.rings r x }

/-- Ring `r` of port `p`. -/
def State.ring (s : State) (p r : Nat) : Ring := (s.port p).ring r

/-- Change ring `r` of port `p`. -/
def State.modRing (s : State) (p r : Nat) (g : Ring → Ring) : State :=
  s.modPort p fun x => x.setRing r (g (x.ring r))

/-- Partition `n`. -/
def State.part (s : State) (n : Nat) : Part := Sparse.read Part.none s.parts n

/-- Replace partition `n`. -/
def State.setPart (s : State) (n : Nat) (x : Part) : State :=
  { s with parts := Sparse.write Part.none s.parts n x }

/-- Change partition `n`. -/
def State.modPart (s : State) (n : Nat) (g : Part → Part) : State := s.setPart n (g (s.part n))

/-- The admitted firing with a handle. -/
def State.firing (s : State) (h : Nat) : Option Firing := s.firings.find? fun f => decide (f.handle = h)

/-- Change the firing with a handle. -/
def State.modFiring (s : State) (h : Nat) (g : Firing → Firing) : State :=
  { s with firings := s.firings.map fun f => if f.handle = h then g f else f }

/-- The command in flight with an id. -/
def State.cmd (s : State) (c : Nat) : Option Cmd := s.cmds.find? fun x => decide (x.id = c)

/-- Change the command in flight with an id. -/
def State.modCmd (s : State) (c : Nat) (g : Cmd → Cmd) : State :=
  { s with cmds := s.cmds.map fun x => if x.id = c then g x else x }

/-- A tally counter set of a frame changed. -/
def State.modTally (s : State) (f : Nat) (g : TallyCtr → TallyCtr) : State :=
  s.modFrame f fun x => { x with tally := g x.tally }

/-- Change the counters of a frame (R459). -/
def State.modCounters (s : State) (f : Nat) (g : Counters → Counters) : State :=
  s.modFrame f fun x => { x with counters := g x.counters }

/-- Apply a change for every element of a list, in order. -/
def State.forEach {α : Type} (s : State) (l : List α) (g : State → α → State) : State := l.foldl g s

/-- Apply a change if a test holds. -/
def State.when (s : State) (b : Bool) (g : State → State) : State := if b then g s else s

/-- Apply a change for the value of an option, if there is one. -/
def State.withSome {α : Type} (s : State) (o : Option α) (g : State → α → State) : State :=
  match o with
  | some a => g s a
  | none => s

/-- Take the number of the next free value. -/
def State.tick (s : State) : State := { s with free := s.free + 1 }

/-! ## The part as a whole -/

/-- The candidate frames of a port, lower then higher (R8). -/
def portCandidates (p : Nat) : Nat × Nat :=
  match p with
  | 0 => (0, 1)
  | 1 => (5, 6)
  | 2 => (13, 14)
  | _ => (18, 19)

/-- The port frame of a port, by the role fuse map (R8). -/
def State.portFrame (s : State) (p : Nat) : Nat :=
  if inMask s.seqr.roleFuse p then (portCandidates p).2 else (portCandidates p).1

/-- The port whose port frame is `f`, if any. -/
def State.framePort (s : State) (f : Nat) : Option Nat := (List.range 4).find? fun p => decide (s.portFrame p = f)

/-- The partition that holds a frame (R346). -/
def State.frameOwner (s : State) (f : Nat) : Option Nat :=
  (List.range 4).find? fun n => inMask (s.part n).frames f

/-- Whether partition `n` exists (R346). -/
def State.partExists (s : State) (n : Nat) : Bool := decide ((s.part n).frames ≠ 0)

/-- The module runs: released and not held in reset. -/
def State.up (s : State) : Bool := decide (s.seqr.phase = .run)

/-- The module has a kiln master (R21). -/
def State.hasMaster (s : State) : Bool := !s.master.none

/-- Send an MSI-X vector on a port (R325). -/
def State.msix (s : State) (p v : Nat) : State := s.modPort p fun x => { x with msix := x.msix ++ [v] }

/-- SMBALERT# goes low for one of the sources of R477. -/
def State.alert (s : State) (source : Nat) : State :=
  { s with smbus := { s.smbus with alert := true, sources := setBit s.smbus.sources source true } }

/-- MSI-X vector 1 on a port, with the alert (R325, R477). -/
def State.vector1 (s : State) (p : Nat) : State := (s.msix p 1).alert 0

/-- MSI-X vector 1 on every port. -/
def State.vector1All (s : State) : State := s.forEach (List.range 4) State.vector1

end Sys2Proof.Machine
end

