-- ==== Sys2Proof/Machine/Derived.lean ====
section
/-! DEFINITION. Values that registers show and that other state decides: rods and tallies held by firings, the cone target,
usable pseudo-channels and packages, pins, journal and bay status. -/

namespace Sys2Proof.Machine

/-! ## Rods and firings -/

/-- Every rod that an image names, compute and shadow (R421, R480). -/
def Image.rods (i : Image) : List RodId := i.contents.computeRods ++ i.contents.shadowRods

/-- An image in force or waiting at a swap. -/
def Firing.images (f : Firing) : List Image :=
  f.img :: (match f.swap with | some q => [q.2.1] | none => [])

/-- A firing holds its rods and reservations from its checks until withdrawal or pre-emption (R37, R355). -/
def Firing.holds (f : Firing) : Bool := decide (f.status ≠ .preempted)

/-- The rods that a firing holds; a pending swap holds its image's rods as well (R42; log 17). -/
def Firing.rods (f : Firing) : List RodId := if f.holds then f.images.flatMap Image.rods else []

/-- Whether some admitted firing but `h` holds a rod (R36 check 5). -/
def State.rodBusy (s : State) (h : Nat) (r : RodId) : Bool :=
  s.firings.any fun f => decide (f.handle ≠ h) && f.rods.contains r

/-- Whether some admitted firing holds a rod. -/
def State.rodHeld (s : State) (r : RodId) : Bool := s.firings.any fun f => f.rods.contains r

/-- A rod group of a frame. -/
def Frame.group (x : Frame) (g : Nat) : Group := Sparse.read Group.reset x.groups g

/-- Replace a rod group. -/
def Frame.setGroup (x : Frame) (g : Nat) (y : Group) : Frame :=
  { x with groups := Sparse.write Group.reset x.groups g y }

/-- The physical rod of a logical position, or none where it is mapped to no enabled rod (R12). -/
def Group.phys (g : Group) (pos : Nat) : Option Nat :=
  if g.missing.contains pos then none else some ((Sparse.find g.map pos).getD pos)

/-- Enabled rods of a group (R36 check 4). -/
def Group.enabled (g : Group) : Nat := 125 - g.missing.length

/-- PLACE_f.FREE_RODS: positions of the frame that no admitted firing holds (R357). -/
def State.freeRods (s : State) (f : Nat) : Nat :=
  let held := (s.firings.flatMap Firing.rods).filter fun r => decide (r.frame = f)
  let missing := (List.range 15).foldl (fun n g => n + ((s.frame f).group g).missing.length) 0
  1875 - (held.eraseDups.length + missing)

/-- Whether an image names a frame in BEAD_FRAMES or SHARD_FRAMES (R29). -/
def Image.names (i : Image) (f : Nat) : Bool := inMask i.beadFrames f || inMask i.shardFrames f

/-- Units of an activity that an image reserves on a frame (R31 TALLY_BUDGET). -/
def Image.tally (i : Image) (f a : Nat) : Nat :=
  i.contents.tally.foldl (fun n t => if t.1 = f ∧ t.2.1 = a then n + t.2.2 else n) 0

/-- Units a firing reserves; a pending swap counts with the larger of both images (log 17). -/
def Firing.tally (x : Firing) (f a : Nat) : Nat :=
  if x.holds then x.images.foldl (fun n i => max n (i.tally f a)) 0 else 0

/-- Units that the admitted, not pre-empted firings of a partition but `h` reserve (R36 check 7). -/
def State.firingUnits (s : State) (n h f a : Nat) : Nat :=
  s.firings.foldl (fun k x => if x.part = n ∧ x.handle ≠ h then k + x.tally f a else k) 0

/-- WIN_CARRY_ALLOC of a partition on a frame, in force. -/
def Part.winCarryOf (p : Part) (f : Nat) : Nat := Sparse.read 0 p.live.winCarry f

/-- TALLY_RESV_f_a (R366): the firings' units and, for carry, WIN_CARRY_ALLOC. -/
def State.resvUnits (s : State) (n f a : Nat) : Nat :=
  s.firingUnits n 0 f a + (if a = 1 then (s.part n).winCarryOf f else 0)

/-- ALLOC_n_f_a in force (R345). -/
def Part.allocOf (p : Part) (f a : Nat) : Nat := Sparse.read 0 p.alloc (f * 10 + a)

/-- TARGET of a frame: the largest FLOOR_MOPS of the admitted, not pre-empted firings that name it, or 700 (R361). -/
def State.targetOf (s : State) (f : Nat) : Nat :=
  let floors := s.firings.flatMap fun x =>
    if x.holds then (x.images.filter fun i => i.names f).map fun i => i.floorMops else []
  match floors with
  | [] => 700
  | _ => floors.foldl max 0

/-- Bring CONE_STATUS.TARGET of every frame up to date (R361, R363). -/
def State.retarget (s : State) : State :=
  s.forEach (List.range 20) fun t f => t.modFrame f fun x => { x with cone := { x.cone with target := t.targetOf f } }

/-! ## Memory status -/

/-- Usable pseudo-channels: two for each channel not mapped out (R458). -/
def FrameMem.pch (m : FrameMem) : Nat := 64 - 2 * m.chOut.length

/-- Usable LPDDR packages (R458). -/
def FrameMem.pkg (m : FrameMem) : Nat := 4 - m.pkgOut.length

/-- Page frames of a frame still restoring (R458 LEFT). -/
def State.restoringLeft (s : State) (f : Nat) : Nat := (s.mem.restoring.filter fun u => decide (u.frame = f)).length

/-! ## Bays and journal -/

/-- A bay. -/
def State.bay (s : State) : Bay → BayState
  | .a => s.bayA
  | .b => s.bayB

/-- Replace a bay. -/
def State.setBay (s : State) (b : Bay) (x : BayState) : State :=
  match b with
  | .a => { s with bayA := x }
  | .b => { s with bayB := x }

/-- A bay accepts new journal records in REBUILDING and ONLINE (R433). -/
def BayState.takes (b : BayState) : Bool := decide (b.state = 3 ∨ b.state = 4)

/-- Both bays are unable to take records: JOURNAL_STATE is OFF (R462). -/
def State.journalOff (s : State) : Bool := !(s.bayA.takes || s.bayB.takes)

/-- JOURNAL_STATE.STATE (R462). -/
def State.journalState (s : State) : Nat :=
  if s.journalOff then 2 else if s.gapFrames ≠ 0 then 1 else 0

/-- Life used in bytes: the larger of the module's count and the cartridge's (R434). -/
def BayState.life (b : BayState) : Nat := max b.written (match b.cart with | some c => c.written | none => 0)

/-- The rated write life, 48 PB (R434). -/
def ratedLife : Nat := 48000000000000000

/-- MIRROR_STATE of a frame (R387). -/
def Twin.mirrorOf (t : Twin) (f : Nat) : Nat := Sparse.read 2 t.mirror f

/-! ## Pins (R469) -/

/-- The output and bidirectional sideband pins of the module. -/
inductive Pin where
  | prsnt (port : Nat)
  | smbus
  | smbAlert
  | thermTrip
  | fault
  | twFenceOut
  | bayRdy (bay : Bay)
deriving DecidableEq, Repr

/-- How the module drives a pin (R399). -/
inductive PinLevel where
  | highZ
  | low
  | high
  | pullUp
  | pullDown
deriving DecidableEq, Repr

/-- The pin fuse map of shipped modules. -/
def Pin.fuse : Pin → PinLevel
  | .prsnt _ => .low
  | .smbus => .highZ
  | .smbAlert => .highZ
  | .thermTrip => .highZ
  | .fault => .highZ
  | .twFenceOut => .pullUp
  | .bayRdy _ => .low

/-- An open-drain pin: low while asserted, otherwise released. -/
def openDrain (asserted : Bool) : PinLevel := if asserted then .low else .highZ

/-- What the function that owns a pin drives (R469): FAULT# is low while the module has no kiln master or any frame is fenced, and
BAY_RDY high while the bay is REMOVABLE. -/
def State.pinFunction (s : State) : Pin → PinLevel
  | .prsnt _ => .low
  | .smbus => .highZ
  | .smbAlert => openDrain s.smbus.alert
  | .thermTrip => .highZ
  | .fault => openDrain (s.master.none || (List.range 20).any fun f => (s.frame f).fenced)
  | .twFenceOut => if s.twin.fenceOut then .low else .pullUp
  | .bayRdy k => if (s.bay k).state = 7 then .high else .low

/-- A pin as the module drives it (R399, R469): high-impedance before boot step 3, in its fuse state until the boot has handed
it to its function, THERMTRIP# low from a thermal trip until its reset ends, whatever the step (log 113). -/
def State.pin (s : State) (p : Pin) : PinLevel :=
  if p = .thermTrip ∧ s.seqr.tripped then .low
  else match s.seqr.phase with
    | .off | .step1 => .highZ
    | .step3 => p.fuse
    | .step5 | .run => s.pinFunction p

/-! ## Tier F (R105, R106, R247) -/

/-- ⌈B / 8⌉ × 8 bytes of glaze for B blocks (R60). -/
def glazePad (blocks : Nat) : Nat := (blocks + 7) / 8 * 8

/-- Length of a record: header, body and padding to 16 B (R105, R106). -/
def journalLength (b : JournalBody) : Nat :=
  let body := match b with
    | .carry op => 32 + (op.blockCount.toNat * 32 *
        (if op.deltaFmt = 0 then 4 else if op.deltaFmt = 1 then 2 else 1) + 31) / 32 * 32
    | .rowWrite _ img => 16 + 8 + glazePad img.glaze.length + img.blocks.length
    | .switch _ _ => 16
    | .relocate _ _ => 16
    | .checkpoint _ _ => 16
    | .epochStart _ _ _ => 168
    | .gap _ _ => 16
  (32 + body + 15) / 16 * 16

/-- Bytes that a row takes in tier F, and its extents of 8 KiB (log 33). -/
def imageExtents (img : RowImage) : Nat := (glazePad img.glaze.length + img.blocks.length + 8191) / 8192

/-- A row image's bytes in tier F. -/
def rowBytes (r : Word64 × Option RowImage) : Nat :=
  match r.2 with
  | some img => imageExtents img * 8192
  | none => 0

/-- Extents of a bay (R247). -/
def bayExtents : Nat := 1875000000

/-- Free extents of a bay: its cold rows, its checkpoints and the journal records that it holds take the rest (log 33). -/
def BayState.freeExtents (b : BayState) : Nat :=
  let rows := b.rows.foldl (fun n p => n + imageExtents p.2) 0
  let ckpts := b.ckpts.foldl (fun n c => c.rows.foldl (fun n r => n + rowBytes r / 8192) n) 0
  let journal := (b.held.foldl (fun n r => n + journalLength r.body) 0 + 8191) / 8192
  bayExtents - (rows + ckpts + journal)

end Sys2Proof.Machine
end

