-- ==== Sys2Proof/Machine/Flits.lean ====
section
/-! DEFINITION. Flits as a link sends them: credits, the replay buffer, transactions and stream records cut into payloads,
the choice of a link (R368, R370, R371, R375 to R378, R380). -/

namespace Sys2Proof.Machine

/-! ## Sending flits (R368, R370, R371) -/

/-- Link `k` of a frame. -/
def Frame.link (x : Frame) (k : Nat) : Link := Sparse.read Link.reset x.links k

/-- Replace a link. -/
def Frame.setLink (x : Frame) (k : Nat) (l : Link) : Frame := { x with links := Sparse.write Link.reset x.links k l }

/-- Change link `k` of frame `f`. -/
def State.modLink (s : State) (f k : Nat) (g : Link → Link) : State :=
  s.modFrame f fun x => x.setLink k (g (x.link k))

/-- A link in L0 (R387). -/
def Link.up (l : Link) : Bool := decide (l.state = 2 ∨ l.state = 3)

/-- Credits held for a virtual channel. -/
def Link.credit (l : Link) (vc : BitVec 2) : Nat := Sparse.read 0 l.credits vc.toNat

/-- A flit of a virtual channel may go: in L0, a credit held, fewer than 1,024 flits unacknowledged. -/
def Link.mayGo (l : Link) (vc : BitVec 2) : Bool :=
  l.up && decide (0 < l.credit vc) && decide (l.replay.length < 1024)

/-- The first `n` bytes of a buffer, filled up with zeros. -/
def fillTo (n : Nat) (bs : List Byte) : List Byte := (bs ++ List.replicate (n - bs.length) 0).take n

/-- The 256 B of a flit (R368, R2): header, payload, the CRC-32 of both, and the check bytes of R369. -/
def flitBytes (q : SentFlit) (nak : Bool) (credVc : Nat) (ack : BitVec 12) (credits : Nat) : List Byte :=
  let head := leBytes 1 (q.type.toNat + q.vc.toNat * 16 + bit nak * 64) ++ leBytes 2 (q.fseq.toNat + credVc * 4096) ++
    leBytes 2 ack.toNat ++ leBytes 1 credits ++ fillTo 240 q.payload
  let body := head ++ leBytes 4 (crc32 head)
  body ++ leBytes 6 (Config.fecBytes body).toNat

/-- A flit goes out: it acknowledges the last good flit received and returns credits of one virtual channel, the lowest that has
some to return, up to 255 (R368, R371; log 110). -/
def Link.putFlit (l : Link) (q : SentFlit) (nak : Bool) : Link :=
  let vc := ((List.range 4).find? fun v => decide (Sparse.read 0 l.owed v ≠ 0)).getD 0
  let n := min 255 (Sparse.read 0 l.owed vc)
  { l with
    owed := Sparse.write 0 l.owed vc (Sparse.read 0 l.owed vc - n),
    wire := l.wire ++ [flitBytes q nak vc l.lastGood n] }

/-- An IDLE flit, which is not sequenced: it carries ACK, CREDITS and a NAK (R368, R370; log 110). -/
def Link.idle (l : Link) (nak : Bool) : Link := l.putFlit ⟨Config.idleFseq l.nextFseq.toNat, 0, 0, [], 0⟩ nak

/-- Put one flit on the wire: it takes the next FSEQ, spends a credit and stays in the replay buffer. -/
def Link.emit (l : Link) (q : SentFlit) : Link :=
  let q := { q with fseq := l.nextFseq }
  ({ l with
    nextFseq := l.nextFseq + 1,
    credits := Sparse.write 0 l.credits q.vc.toNat (l.credit q.vc - 1),
    replay := l.replay ++ [q] } : Link).putFlit q false

/-- Send what may go, in order within each virtual channel; a channel that is held back holds back no other. -/
def Link.pumpList (l : Link) (blocked : List (BitVec 2)) : List SentFlit → Link
  | [] => { l with queue := [] }
  | q :: qs =>
    if blocked.contains q.vc || !l.mayGo q.vc then
      let m := l.pumpList (q.vc :: blocked) qs
      { m with queue := q :: m.queue }
    else (l.emit q).pumpList blocked qs

/-- Send what waits. -/
def Link.pump (l : Link) : Link := l.pumpList [] l.queue

/-- Queue flits of one type and channel, and send what may go. -/
def Link.send (l : Link) (types : List (BitVec 4 × List Byte)) (vc : BitVec 2) : Link :=
  ({ l with queue := l.queue ++ types.map fun t => ⟨0, t.1, vc, t.2, 0⟩ } : Link).pump

/-! ## Transactions (R377) -/

/-- The header of a transaction with a TCRC. -/
def txnHeader (t : Txn) (kind tcrc : Nat) : List Byte :=
  leBytes 1 kind ++ leBytes 1 t.status.toNat ++ leBytes 2 t.dst.toNat ++ leBytes 2 t.src.toNat ++ leBytes 2 t.window ++
  leBytes 8 t.offset ++ leBytes 2 t.length ++ leBytes 2 t.tid.toNat ++ leBytes 4 tcrc

/-- A transaction's bytes: its header, with the CRC-32 of the header with TCRC 0 and the data, then the data. A bad TCRC that is
forwarded stays bad. -/
def txnBytes (t : Txn) (kind : Nat) : List Byte :=
  let crc := crc32 (txnHeader t kind 0 ++ t.data)
  txnHeader t kind (if t.tcrcGood then crc else crc ^^^ 1) ++ t.data

/-- Cut bytes into payloads of 240 B, the last filled up with zeros. -/
def payloads : Nat → List Byte → List (List Byte)
  | 0, _ => []
  | n + 1, bs => fillTo 240 (bs.take 240) :: payloads n (bs.drop 240)

/-- Flits of a transaction of `n` data bytes. -/
def txnFlits (n : Nat) : Nat := (24 + n + 239) / 240

/-- The flits of a transaction: TXN_FIRST, then TXN_NEXT. -/
def flitsOfTxn (t : Txn) (kind : Nat) : List (BitVec 4 × List Byte) :=
  match payloads (txnFlits t.data.length) (txnBytes t kind) with
  | [] => []
  | p :: ps => (1, p) :: ps.map fun q => (2, q)

/-! ## Routes (R375, R376) -/

/-- The candidates of a route entry. -/
def routeLinks (e : Word64) : List Nat :=
  ([8, 14, 20, 26].map fun lo => bits e.toNat (lo + 5) lo).filter fun k => decide (k < 60)

/-- Fabric link `n` of the module (R367). -/
def State.fabricLink (s : State) (n : Nat) : Link := (s.frame (n / 3)).link (n % 3)

/-- Whether candidate `a` goes before `b`: in L0, then more credits on the channel, then the lower number (R376). -/
def State.linkBefore (s : State) (vc : BitVec 2) (a b : Nat) : Bool :=
  let x := s.fabricLink a
  let y := s.fabricLink b
  if x.up ≠ y.up then x.up
  else if x.credit vc ≠ y.credit vc then decide (y.credit vc < x.credit vc)
  else decide (a < b)

/-- The link that a transaction for `dst` takes on a channel, or none where no route is VALID (R376, R378; log 30). -/
def State.routeLink (s : State) (dst : BitVec 16) (vc : BitVec 2) : Option Nat :=
  let e := Sparse.read 0#64 s.fabric.routes dst.toNat
  if !e.getLsbD 0 || decide (dst = s.fabric.moduleId) then none
  else match routeLinks e with
  | [] => none
  | k :: ks => some (ks.foldl (fun a b => if s.linkBefore vc a b then a else b) k)

/-- Send a transaction on a fabric link: requests on VC 0, responses on VC 1 (R377). -/
def State.sendTxn (s : State) (link kind : Nat) (t : Txn) : State :=
  s.modLink (link / 3) (link % 3) fun l => l.send (flitsOfTxn t kind) (if kind = 3 then 1 else 0)

/-! ## Stream records (R98, R380) -/

/-- A stream record's 80 B. -/
def streamBytes (r : StreamRec) : List Byte :=
  leBytes 8 r.seq ++ leBytes 4 (r.burst % 2 ^ 31 + r.tier.num * 2 ^ 31) ++ fillTo 4 r.side ++ fillTo 64 r.data

/-- A STREAM flit with one record and two empty slots, whose SEQ is all ones. -/
def streamPayload (r : StreamRec) : List Byte :=
  let empty := List.replicate 8 0xFF#8 ++ List.replicate 72 0#8
  streamBytes r ++ empty ++ empty

/-- Send a stream record on the twin link of a frame, VC 2; to a far twin it goes through the fabric, as transactions whose
layout the spec does not give (R385; log 57). -/
def State.sendRecord (s : State) (f : Nat) (r : StreamRec) : State :=
  if s.twin.far then s else s.modLink f 3 fun l => l.send [(3, streamPayload r)] 2

end Sys2Proof.Machine
end

