-- ==== Sys2Proof/Machine/MemOps.lean ====
section
/-! DEFINITION. Device memory: places, bursts, side bytes, poison, mirrored ranges and the twin stream of a write
(R54, R226 to R241, R96 to R99). -/

namespace Sys2Proof.Machine

/-- Key of the first byte of a tier of a frame. -/
def tierBase (f : Nat) (t : Tier) : Nat := f * 224000000000 + (match t with | .h => 0 | .l => 96000000000)

/-- Key of a byte of device memory. -/
def Place.key (p : Place) : Nat := tierBase p.frame p.tier + p.off

/-- The place `n` bytes further. -/
def Place.add (p : Place) (n : Nat) : Place := { p with off := p.off + n }

/-- Whether `n` bytes at a place lie in the tier. -/
def Place.fits (p : Place) (n : Nat) : Bool := frameOk p.frame && decide (p.off + n ≤ p.tier.bytes)

/-- The burst that holds a place (R228, R235). -/
def Place.burst (p : Place) : Unit64 := ⟨p.frame, p.tier, p.off / 64⟩

/-- The 64 KiB page frame that holds a place (R228, R230). -/
def Place.pageFrame (p : Place) : Unit64 := ⟨p.frame, p.tier, p.off / 65536⟩

/-- Where a burst lies. -/
def Unit64.place (u : Unit64) : Place := ⟨u.frame, u.tier, u.num * 64⟩

/-- The page frame of a burst. -/
def Unit64.pageFrame (u : Unit64) : Unit64 := { u with num := u.num / 1024 }

/-- The bursts that hold any of `n` bytes at a place. -/
def Place.bursts (p : Place) (n : Nat) : List Unit64 :=
  if n = 0 then []
  else (List.range ((p.off + n - 1) / 64 + 1 - p.off / 64)).map fun i => ⟨p.frame, p.tier, p.off / 64 + i⟩

/-- Key of the first side byte of a burst (R54). -/
def Unit64.sideKey (u : Unit64) : Nat := u.place.key / 64 * 4

/-! ## Reading -/

/-- `n` bytes of device memory. -/
def State.devBytes (s : State) (p : Place) (n : Nat) : List Byte := s.mem.dram.bytes p.key n

/-- An `n`-byte little-endian number in device memory. -/
def State.devNat (s : State) (p : Place) (n : Nat) : Nat := leNat (s.devBytes p n)

/-- The four side bytes of a burst (R54). -/
def State.sideBytes (s : State) (u : Unit64) : List Byte := s.mem.side.bytes u.sideKey 4

/-- A burst that readers find poisoned, on a restoring page frame, or on a retired one (R241, R245, R272). -/
def State.badBurst (s : State) (u : Unit64) : Bool :=
  s.mem.poisoned.contains u || s.mem.lost.contains u.pageFrame || s.mem.restoring.contains u.pageFrame ||
    s.mem.retired.contains u.pageFrame

/-- Whether a read of `n` bytes at a place meets a poisoned or restoring burst. -/
def State.badRead (s : State) (p : Place) (n : Nat) : Bool := (p.bursts n).any s.badBurst

/-- A read of poisoned or restoring bursts counts in MEM_POISON_READS (R241). -/
def State.countPoison (s : State) (f : Nat) : State :=
  s.modCounters f fun c => { c with poisonReads := inc32 c.poisonReads }

/-! ## Mirrored ranges and the stream -/

/-- Whether a page frame lies in a mirrored range (R97). -/
def State.pageMirrored (s : State) (u : Unit64) : Bool :=
  (s.frame u.frame).mirrored.any fun m =>
    decide (m.tier = u.tier) && decide (m.start ≤ u.num) && decide (u.num < m.start + m.count)

/-- Whether a burst lies in a mirrored range. -/
def State.burstMirrored (s : State) (u : Unit64) : Bool := s.pageMirrored u.pageFrame

/-- Whether any of `n` bytes at a place lies in a mirrored range. -/
def State.mirrored (s : State) (p : Place) (n : Nat) : Bool := (p.bursts n).any s.burstMirrored

/-- A set waits on a frame's stream: a record or a region there is not acknowledged (R264). -/
def State.waitsOn (s : State) (k : Known) (f : Nat) : Bool :=
  (k.seqs.any fun p => decide (p.1 = f) && (s.frame f).stream.unacked.any fun r => decide (r.seq < p.2)) ||
    k.regions.any fun g => decide (g.1.frame = f)

/-- A pair event is held on a frame that is DIRTY or DOWN: PAIR_EVT_HELD of the target's frame counts it once (R264; log 22). -/
def State.countHeld (s : State) (e : PairEvent) : State :=
  s.modCounters e.target.frame fun c => { c with pairHeld := inc32 c.pairHeld }

/-- The pair events that wait on a frame's stream are held from now on (R264). -/
def State.holdEvents (s : State) (f : Nat) : State :=
  s.forEach (List.range 20) fun t g =>
    let mine := fun e : PairEvent => !e.held && s.waitsOn e.known f
    let new := (s.frame g).stream.events.filter mine
    let t := if new = [] then t else t.modFrame g fun x => { x with stream := { x.stream with
      events := x.stream.events.map fun e => if mine e then { e with held := true } else e } }
    t.forEach new State.countHeld

/-- Change MIRROR_STATE of a frame; a change raises MSI-X vector 1 (R325, R387), and on a frame that is DIRTY or DOWN pair
events are held (R264). -/
def State.setMirror (s : State) (f v : Nat) : State :=
  if s.twin.mirrorOf f = v then s
  else
    let t := ({ s with twin := { s.twin with mirror := Sparse.write 2 s.twin.mirror f v } } : State).vector1All
    t.when (decide (v ≠ 0)) fun t => t.holdEvents f

/-- A region that is written meanwhile is compared later in the mirror sweep (R100). -/
def State.dropSwept (s : State) (u : Unit64) : State :=
  s.modFrame u.frame fun x => { x with stream := { x.stream with swept := x.stream.swept.filter (· ≠ u.pageFrame) } }

/-- Mark the 64 KiB region of a burst dirty (R99). -/
def State.markDirty (s : State) (u : Unit64) : State :=
  let s' := s.modFrame u.frame fun x =>
    if x.stream.dirty.contains u.pageFrame then x
    else { x with stream := { x.stream with dirty := x.stream.dirty ++ [u.pageFrame] } }
  if (s.frame u.frame).streamUp then s'.setMirror u.frame 1 else s'

/-- STREAM_SEND (R98, R99): a burst written on a paired primary in a mirrored range goes to the twin frame as a stream
record, or its region is marked dirty while the lanes are down, while 65,536 records are unacknowledged, or while a resend of the
region is. The frame is DIRTY with the 65,536th record. -/
def State.streamBurst (s : State) (u : Unit64) : State :=
  if s.twin.role = 1 ∧ s.twin.paired ∧ s.burstMirrored u then
    let s := s.dropSwept u
    let st := (s.frame u.frame).stream
    if (s.frame u.frame).streamUp ∧ st.unacked.length < 65536 ∧ !(st.resent.any fun r => decide (r.1 = u.pageFrame)) then
      let r : StreamRec := ⟨st.nextSeq, u.tier, u.num, s.sideBytes u, s.devBytes u.place 64⟩
      let t := (s.modFrame u.frame fun x =>
        { x with stream := { x.stream with nextSeq := st.nextSeq + 1, unacked := x.stream.unacked ++ [r] } }).sendRecord
          u.frame r
      if st.unacked.length + 1 < 65536 then t else t.setMirror u.frame 1
    else s.markDirty u
  else s

/-- A copy for the twin's saggars, on VC 2 of a frame's twin link, in a flit of its own (R104, R380). -/
def State.copyToTwin (s : State) (f : Nat) (r : TwinRec) : State :=
  if s.twin.role = 1 ∧ s.twin.paired ∧ (s.frame f).streamUp then
    { s with twin := { s.twin with copies := s.twin.copies ++ [(f, r)] } }
  else s

/-- The twin has not yet written a burst: its record, its region or a resend of it is not acknowledged, on lanes that are up
(R93, R99). -/
def State.copyPending (s : State) (u : Unit64) : Bool :=
  let x := s.frame u.frame
  s.twin.paired && x.streamUp &&
    ((x.stream.unacked.any fun r => decide (r.tier = u.tier ∧ r.burst = u.num)) || x.stream.dirty.contains u.pageFrame ||
      x.stream.resent.any fun r => decide (r.1 = u.pageFrame))

/-- A burst has still to be sent to the twin, on lanes that are up (R93). -/
def State.sendPending (s : State) (u : Unit64) : Bool :=
  let x := s.frame u.frame
  s.twin.paired && x.streamUp && x.stream.dirty.contains u.pageFrame

/-! ## Writing -/

/-- Whether `n` bytes at a place cover a burst whole. -/
def Place.covers (p : Place) (n : Nat) (u : Unit64) : Bool :=
  decide (p.off ≤ u.num * 64) && decide (u.num * 64 + 64 ≤ p.off + n)

/-- The 1,024 bursts of a page frame. -/
def Unit64.pageBursts (g : Unit64) : List Unit64 := (List.range 1024).map fun i => { g with num := g.num * 1024 + i }

/-- A write of `n` bytes at a place writes some burst of a page frame whole. -/
def Place.coversIn (p : Place) (n : Nat) (g : Unit64) : Bool :=
  let first := max ((p.off + 63) / 64) (g.num * 1024)
  let last := min ((p.off + n) / 64) (g.num * 1024 + 1024)
  decide (g.frame = p.frame ∧ g.tier = p.tier ∧ first < last)

/-- A burst that a writer writes whole is no longer poisoned (R241). -/
def State.clearPoison (s : State) (p : Place) (n : Nat) : State :=
  let broken := s.mem.lost.filter fun g => p.coversIn n g
  { s with mem := { s.mem with
      lost := s.mem.lost.filter fun g => !p.coversIn n g,
      errors := s.mem.errors.map fun e =>
        if e.burst.frame = p.frame ∧ e.burst.tier = p.tier ∧ p.covers n e.burst then { e with rewritten := true } else e,
      poisoned := (s.mem.poisoned ++ broken.flatMap Unit64.pageBursts).filter fun u =>
        !(decide (u.frame = p.frame) && decide (u.tier = p.tier) && p.covers n u) } }

/-- Put bytes into device memory, with no stream. -/
def State.pokeDev (s : State) (p : Place) (bs : List Byte) : State :=
  { s with mem := { s.mem with dram := s.mem.dram.setBytes p.key bs } }

/-- Put the four side bytes of a burst, with no stream. -/
def State.pokeSide (s : State) (u : Unit64) (bs : List Byte) : State :=
  { s with mem := { s.mem with side := s.mem.side.setBytes u.sideKey (bs.take 4) } }

/-- An engine's write of bytes: merged into its bursts (R235), poison cleared where a burst is written whole (R241), and
each burst streamed (R97). -/
def State.writeDev (s : State) (p : Place) (bs : List Byte) : State :=
  ((s.pokeDev p bs).clearPoison p bs.length).forEach (p.bursts bs.length) State.streamBurst

/-- A whole burst with its side bytes (R54). -/
def State.writeBurst (s : State) (u : Unit64) (data side : List Byte) : State :=
  (((s.pokeDev u.place (data.take 64)).pokeSide u side).clearPoison u.place 64).streamBurst u

/-- A write that the secondary refuses: into a mirrored range and not from the twin stream (R96). -/
def State.secondaryBars (s : State) (p : Place) (n : Nat) : Bool :=
  decide (s.twin.role = 2 ∨ s.twin.role = 3) && s.mirrored p n

/-- Poison a burst (R241). -/
def State.poison (s : State) (u : Unit64) : State :=
  if s.mem.poisoned.contains u ∨ s.mem.lost.contains u.pageFrame then s else { s with mem := { s.mem with poisoned := s.mem.poisoned ++ [u] } }

/-! ## Errors that reads find (R228, R230, R240, R241, R244) -/

/-- The channel that a burst of a frame lies on: in tier H burst `q` of a page frame on the `q` mod `n`-th of the controller's `n`
channels in use, controller `p` mod 8; in tier L on channel `q` mod 4 of package `p` mod 4 (R228, R230). -/
def FrameMem.channelOf (m : FrameMem) (u : Unit64) : Nat :=
  let p := u.pageFrame.num
  let q := u.num % 1024
  match u.tier with
  | .h =>
    let inUse := ((List.range 4).map fun i => 4 * (p % 8) + i).filter fun c => !m.chOut.contains c
    (inUse[q % max inUse.length 1]?).getD (4 * (p % 8))
  | .l => 4 * (p % 4) + q % 4

/-- A message to the twin, on the twin link of a frame while it is up. -/
def State.tell (s : State) (f code : Nat) (ws : List Nat) : State :=
  if s.twin.paired ∧ (s.frame f).streamUp then
    { s with twin := { s.twin with sent := s.twin.sent ++ [(f, code, ws)] } }
  else s

/-- A burst that the twin holds is asked for at once (R241). -/
def State.askBurst (s : State) (u : Unit64) : State :=
  if s.burstMirrored u then s.tell u.frame 0x07 [u.tier.num, u.num] else s

/-- An uncorrectable error joins the frame's history: the burst and its channel, or a second one after a whole write (R244). -/
def State.noteError (s : State) (u : Unit64) : State :=
  let old := s.mem.errors
  let new := if old.any fun e => decide (e.burst = u) then
      old.map fun e => if e.burst = u then { e with again := e.again || e.rewritten } else e
    else old ++ [⟨u, (s.frame u.frame).mem.channelOf u, false, false⟩]
  { s with mem := { s.mem with errors := new } }

/-- What a read of a burst finds: a corrected error counts in MEM_CE_COUNT, an uncorrectable one poisons the burst, counts in
MEM_UE_COUNT and asks the twin (R240, R241). -/
def State.checkBurst (s : State) (u : Unit64) (found : BurstCheck) : State :=
  match found with
  | .clean => s
  | .correctable => s.modCounters u.frame fun c => { c with memCe := inc32 c.memCe }
  | .uncorrectable => (((s.poison u).noteError u).modCounters u.frame fun c => { c with memUe := inc32 c.memUe }).askBurst u

/-- The errors that reads of the bursts listed find, before what they read is used; a burst that is bad already is not checked. -/
def State.findErrors (s : State) (reads : List Unit64) (found : List BurstFound) : State :=
  s.forEach found fun t g =>
    let u : Unit64 := ⟨g.frame, g.tier, g.burst⟩
    if reads.contains u && !t.badBurst u then t.checkBurst u g.check else t

/-! ## Scratch and rod pool -/

/-- Key of a scratch byte; offsets are taken modulo 16 KiB (R122). -/
def scratchKey (b : BeadId) (off : Nat) : Nat := b.key * 16384 + off % 16384

/-- `n` bytes of a bead's scratch, each address modulo 16 KiB (R122, R132). -/
def State.scratchBytes (s : State) (b : BeadId) (off n : Nat) : List Byte :=
  (List.range n).map fun i => s.mem.scratch.get (scratchKey b (off + i))

/-- An `n`-byte number in scratch. -/
def State.scratchNat (s : State) (b : BeadId) (off n : Nat) : Nat := leNat (s.scratchBytes b off n)

/-- Write bytes to a bead's scratch. -/
def State.writeScratch (s : State) (b : BeadId) (off : Nat) : List Byte → State
  | [] => s
  | v :: vs =>
    ({ s with mem := { s.mem with scratch := s.mem.scratch.set (scratchKey b off) v } } : State).writeScratch b (off + 1) vs

/-- Key of a rod pool byte (R123). -/
def poolKey (r : RodId) (off : Nat) : Nat := r.key * 65536 + off % 65536

/-- `n` bytes of a rod pool. -/
def State.poolBytes (s : State) (r : RodId) (off n : Nat) : List Byte :=
  (List.range n).map fun i => s.mem.pool.get (poolKey r (off + i))

/-- Write bytes to a rod pool. -/
def State.writePool (s : State) (r : RodId) (off : Nat) : List Byte → State
  | [] => s
  | v :: vs =>
    ({ s with mem := { s.mem with pool := s.mem.pool.set (poolKey r off) v } } : State).writePool r (off + 1) vs

/-- Scratch of its eight beads and pool of a rod set to zero (R114). -/
def State.zeroRod (s : State) (r : RodId) : State :=
  { s with mem := { s.mem with
      scratch := s.mem.scratch.zero (r.key * 8 * 16384) (8 * 16384),
      pool := s.mem.pool.zero (r.key * 65536) 65536 } }

end Sys2Proof.Machine
end

