-- ==== Sys2Proof/Machine/Translate.lean ====
section
/-! DEFINITION. Device virtual addresses: page table walks, translation caches, pin tables and shard pages
(R268 to R275, R272, R347). -/

namespace Sys2Proof.Machine

/-- A leaf brought to one 64 KiB page (R270): where the page starts and what it allows. -/
structure Leaf where
  write : Bool
  pin : Bool
  loc : Nat
  busy : Bool
  frame : Nat
  /-- LOC 0, 1: byte offset in the tier; LOC 2: host bus address; LOC 4: the ADDR field with the page's WPAGE, which passes bit 63
  where the page lies beyond 64 GiB of the window -/
  base : Nat
deriving DecidableEq, Repr

/-- The leaf that a 64 KiB leaf word holds. -/
def Leaf.ofWord (w : Nat) : Leaf :=
  { write := bitAt w 2, pin := bitAt w 3, loc := bits w 6 4, busy := bitAt w 12, frame := bits w 11 7,
    base := w / 65536 * 65536 }

/-- A leaf of tier H or tier L as a place. -/
def Leaf.place (l : Leaf) : Place := ⟨l.frame, Tier.ofNum l.loc, l.base⟩

/-- LOC 4: module, window and byte offset of the page in the window (R270). -/
def Leaf.remote (l : Leaf) : Nat × Nat × Nat :=
  (bits l.base 31 16, bits l.base 43 32, l.base / 2 ^ 44 * 65536)

/-- How a walk ends: at a leaf word, or at a fault kind of R275. -/
inductive Walk where
  | leaf (w : Nat)
  | bad (kind : Nat)
deriving DecidableEq, Repr

/-- Whether a page frame is a shard page of a table that partition `n` may read (R347). -/
def State.shardPage (s : State) (n : Nat) (u : Unit64) : Bool :=
  (List.range 20).any fun f => (s.frame f).tables.any fun t =>
    (decide (t.2.owner = n) || inMask (s.part n).readFrom t.2.owner) &&
      t.2.pages.any fun g => decide (g.place.pageFrame = u)

/-- The checks of a leaf met at a level whose pages have `size` bytes, and its 64 KiB page for `va` (R270, R275). -/
def State.leafAt (s : State) (n va e size : Nat) : Walk :=
  let loc := bits e 6 4
  let frame := bits e 11 7
  let base := bits e 63 16 * 65536
  let sub := va % size / 65536 * 65536
  let dram := decide (loc ≤ 1)
  let shapeOk := decide (bits e 15 13 = 0) && decide (loc ≤ 4) &&
    (if dram then decide (frame < 20) else decide (frame = 0)) &&
    (if loc ≤ 2 then decide (base % size = 0) else true) &&
    (if loc = 3 then decide (base = 0) else true) &&
    (!bitAt e 3 || dram) &&
    (if dram then decide (base + size ≤ (Tier.ofNum loc).bytes) else true)
  let ownOk := !dram || inMask (s.part n).frames frame ||
    (List.range (size / 65536)).all fun i => s.shardPage n ⟨frame, Tier.ofNum loc, base / 65536 + i⟩
  if !(shapeOk && ownOk) then .bad 0x04
  else if loc = 3 then .bad 0x03
  else if loc = 4 then .leaf (e + sub / 65536 * 2 ^ 44)
  else .leaf (e + sub)

/-- A walk from a table at `off` in tier H of `frame`, over the levels left: index shift and index bits (R268, R269). -/
def State.walkFrom (s : State) (n va : Nat) : List (Nat × Nat) → Nat → Nat → Walk
  | [], _, _ => .bad 0x04
  | (shift, nbits) :: rest, frame, off =>
    let size := 2 ^ (nbits + 3)
    let tableOk := decide (frame < 20) && inMask (s.part n).frames frame && decide (off % size = 0) &&
      decide (off + size ≤ Tier.h.bytes)
    if !tableOk then .bad 0x04
    else
      let e := s.devNat ⟨frame, .h, off + va / 2 ^ shift % 2 ^ nbits * 8⟩ 8
      if e % 2 = 0 then .bad 0x01
      else if bitAt e 1 then
        if shift = 39 then .bad 0x04 else s.leafAt n va e (2 ^ shift)
      else if bitAt e 2 then .bad 0x04
      else s.walkFrom n va rest (bits e 7 3) (bits e 63 8 * 256)

/-- A walk of partition `n`'s tree for a device virtual address, past the caches (R268). -/
def State.walk (s : State) (n va : Nat) : Walk :=
  let r := (s.part n).live
  if 2 ^ 52 ≤ va then .bad 0x04
  else s.walkFrom n va [(39, 13), (30, 9), (21, 9), (16, 5)] r.ptFrame.toNat (r.ptOffset.toNat * 65536)

/-- A translation cached by a frame's walker (R273). -/
def Frame.cached (x : Frame) (n page : Nat) : Option Nat :=
  (x.tlb.find? fun t => decide (t.1 = n) && decide (t.2.1 = page)).map fun t => t.2.2.toNat

/-- A walk by frame `f`'s walker, through its cache (R273, R274). -/
def State.walkAt (s : State) (f n va : Nat) : Walk :=
  match (s.frame f).cached n (va / 65536) with
  | some w => .leaf w
  | none => s.walk n va

/-- Keep a leaf in a frame's cache of 4,096 translations; the oldest goes when it is full (R273; log 18). -/
def State.fillTlb (s : State) (f n va : Nat) : State :=
  match (s.frame f).cached n (va / 65536), s.walk n va with
  | none, .leaf w =>
    s.modFrame f fun x => { x with
      tlb := (x.tlb.drop (x.tlb.length + 1 - 4096)) ++ [(n, va / 65536, BitVec.ofNat 65 w)] }
  | _, _ => s

/-- The 64 KiB pages of a range, as page numbers. -/
def pagesOf (va n : Nat) : List Nat :=
  if n = 0 then [] else (List.range ((va + n - 1) / 65536 + 1 - va / 65536)).map fun i => va / 65536 + i

/-- The page of a pin table that holds an address. -/
def pinFind (pins : List PinPage) (va : Nat) : Option PinPage := pins.find? fun p => decide (p.page = va / 65536)

/-- Where a pinned address lies. -/
def pinPlace (pins : List PinPage) (va : Nat) : Option Place := (pinFind pins va).map fun p => p.place.add (va % 65536)

/-- Whether every byte of a range is in a pin table. -/
def pinHas (pins : List PinPage) (va n : Nat) : Bool := (pagesOf va n).all fun p => (pinFind pins (p * 65536)).isSome

/-- Bytes of a pinned range, page by page; an address outside the table reads 0. -/
def State.pinBytes (s : State) (pins : List PinPage) (va n : Nat) : List Byte :=
  (List.range n).map fun i =>
    match pinPlace pins (va + i) with
    | some p => s.mem.dram.get p.key
    | none => 0

/-- The pieces of a range, one for each page: address and length. -/
def pieces (va n : Nat) : List (Nat × Nat) :=
  (pagesOf va n).map fun p =>
    let lo := max va (p * 65536)
    (lo, min (va + n) ((p + 1) * 65536) - lo)

/-- A write through a pin table, page by page (R272). -/
def State.pinWrite (s : State) (pins : List PinPage) (va : Nat) (bs : List Byte) : State :=
  s.forEach (pieces va bs.length) fun t pc =>
    match pinPlace pins pc.1 with
    | some p => t.writeDev p ((bs.drop (pc.1 - va)).take pc.2)
    | none => t

/-- The places of a pinned range, one for each page, with their lengths. -/
def pinPieces (pins : List PinPage) (va n : Nat) : List (Place × Nat) :=
  (pieces va n).filterMap fun pc => (pinPlace pins pc.1).map fun p => (p, pc.2)

/-- A frame on which a read of a pinned range meets a poisoned or restoring burst, if any (R241). -/
def State.pinBad (s : State) (pins : List PinPage) (va n : Nat) : Option Nat :=
  ((pinPieces pins va n).find? fun q => s.badRead q.1 q.2).map fun q => q.1.frame

/-- Bytes of a pinned range with those of poisoned or restoring bursts 0 (R241, coil source read). -/
def State.pinBytesOrZero (s : State) (pins : List PinPage) (va n : Nat) : List Byte :=
  (List.range n).map fun i =>
    match pinPlace pins (va + i) with
    | some p => if s.badBurst p.burst then 0 else s.mem.dram.get p.key
    | none => 0

/-- A page that the partition's tree maps to tier H or tier L with PIN (R285): its place. -/
def State.mappedPin (s : State) (n va : Nat) : Option PinPage :=
  match s.walk n va with
  | .leaf w =>
    let l := Leaf.ofWord w
    if l.pin then some ⟨va / 65536, l.place, l.write⟩ else none
  | .bad _ => none

/-- The same on a frame of the partition (R302, R304, R340, R409). -/
def State.pinnedPage (s : State) (n va : Nat) : Option PinPage :=
  match s.mappedPin n va with
  | some g => if inMask (s.part n).frames g.place.frame then some g else none
  | none => none

/-- The pages of a partition in the pin tables: those of its admitted firings, its inbound windows and its tables (R272, R285,
R347). -/
def State.pinTable (s : State) (n : Nat) : List PinPage :=
  ((s.firings.filter fun f => decide (f.part = n)).flatMap fun f => f.pins) ++
    ((s.fabric.windows.filter fun w => decide (w.2.part = n)).flatMap fun w => Sparse.read [] s.fabric.winPins w.1) ++
    (List.range 20).flatMap fun f => ((s.frame f).tables.filter fun t => decide (t.2.owner = n)).flatMap fun t => t.2.pages

/-- Where a page that carries PIN lies for an engine: as the pin tables hold it, otherwise as the tree maps it now (R272; log
31). -/
def State.heldPage (s : State) (n va : Nat) : Option PinPage :=
  match pinFind (s.pinTable n) va with
  | some g => some g
  | none => s.pinnedPage n va

/-- The pin pages of a range, if all of it is pinned memory of the partition. -/
def State.pinnedRange (s : State) (n va len : Nat) : Option (List PinPage) :=
  (pagesOf va len).mapM fun p => s.pinnedPage n (p * 65536)

end Sys2Proof.Machine
end

