-- ==== Sys2Proof/Machine/Faults.lean ====
section
/-! DEFINITION. The fault queue of a partition: raising, merging, stalling, records, retirement (R275 to R283). -/

namespace Sys2Proof.Machine

/-- Key of a translation fault: its 64 KiB page (R278). -/
def pageKey (va : Nat) : Nat := va / 65536 * 2

/-- Key of a miss fault: its table and row (R278). -/
def rowFaultKey (table row : Nat) : Nat := (table * 2 ^ 32 + row) * 2 + 1

/-- ADDR of a miss fault: row in [31:0], table in [47:32] (R282). -/
def rowFaultAddr (table row : Nat) : Word64 := BitVec.ofNat 64 (row % 2 ^ 32 + table % 2 ^ 16 * 2 ^ 32)

/-- Change the fault queue of partition `n`. -/
def State.modFaults (s : State) (n : Nat) (g : FaultQueue → FaultQueue) : State :=
  s.modPart n fun p => { p with faults := g p.faults }

/-- Records written to the ring and not passed by FAULT_RING_HEAD (R283). -/
def FaultQueue.unread (q : FaultQueue) : Nat := q.written - q.passed

/-- Whether a record fits: fewer than 1,024 unread for an entry record, fewer than 1,025 for a marker (R283). -/
def FaultQueue.fits (q : FaultQueue) (r : FaultRec) : Bool :=
  if r.kind = 0x7F then decide (q.unread < 1025) else decide (q.unread < 1024)

/-- The 64 B of a fault record (R282, R2); reserved bytes and bits are 0. -/
def FaultRec.bytes (r : FaultRec) (phase : Bool) : List Byte :=
  leBytes 1 r.kind ++ leBytes 1 r.access ++ leBytes 2 (bit r.kiln + bit r.mixed * 2 + bit phase * 2 ^ 15) ++
  leBytes 4 r.faultId ++ leBytes 8 r.addr.toNat ++ leBytes 4 r.engine ++ leBytes 4 r.handle ++ leBytes 4 r.position ++
  leBytes 4 r.overflows ++ leBytes 32 0

/-- Host bus address of the n-th record of a fault ring: position n mod 1,025 from FAULT_RING_BASE (R282, R283). -/
def FaultQueue.addr (q : FaultQueue) (n : Nat) : Nat := q.ringBase.toNat * 4096 + n % 1025 * 64

/-- Write one record: ring position, PHASE, OVERFLOWS as they stand now; a marker repeats the FAULT_ID of the last entry
record (R282, R283). -/
def FaultQueue.place (q : FaultQueue) (r : FaultRec) : FaultQueue × HostWrite :=
  let out := { r with
    faultId := if r.kind = 0x7F then q.lastId else r.faultId,
    overflows := q.overflows }
  ({ q with written := q.written + 1, lastId := if r.kind = 0x7F then q.lastId else r.faultId },
   .fault (q.addr q.written) (out.bytes (decide (q.written / 1025 % 2 = 0))) out)

/-- FAULT_RECORD_WRITE: one record into the port's transmit queue, and MSI-X vector 0 (R282, R325). -/
def State.sendFault (s : State) (n : Nat) (r : FaultRec) : State :=
  let placed := (s.part n).faults.place r
  ((s.modFaults n fun _ => placed.1).modPort n fun p => { p with tx := p.tx ++ [placed.2] }).msix n 0

/-- Write the waiting records while they fit; a marker that finds 1,025 positions unread is dropped (R283). -/
def State.sendFaults (s : State) (n : Nat) : List FaultRec → State
  | [] => s.modFaults n fun q => { q with waiting := [] }
  | r :: rs =>
    if (s.part n).faults.fits r then (s.sendFault n r).sendFaults n rs
    else if r.kind = 0x7F then s.sendFaults n rs
    else s.modFaults n fun q => { q with waiting := r :: rs }

/-- Write what waits if the port is ATTACHED (R283, R342). -/
def State.flushFaults (s : State) (n : Nat) : State :=
  if (s.port n).state = 2 then s.sendFaults n (s.part n).faults.waiting else s

/-- A fault as an engine raises it. -/
structure Raise where
  kind : Nat
  access : Nat
  key : Nat
  addr : Word64
  engine : Nat
  handle : Nat
  position : Nat
  waiter : Waiter
deriving DecidableEq, Repr

/-- Merge a fault into an open entry of its key (R278). -/
def FaultEntry.merge (e : FaultEntry) (r : Raise) : FaultEntry :=
  { e with
    access := e.access ||| r.access,
    mixed := e.mixed || decide (r.kind ≠ e.kind),
    waiters := e.waiters ++ [r.waiter] }

/-- The record of a new entry (R282). -/
def FaultEntry.record (e : FaultEntry) : FaultRec where
  kind := e.kind
  access := e.access
  kiln := decide (e.kind = 0x05 ∨ e.kind = 0x06)
  mixed := e.mixed
  faultId := e.id
  addr := e.addr
  engine := e.engine
  handle := e.handle
  position := e.position
  overflows := 0

/-- Open an entry for a fault and queue its record (R277, R282). -/
def State.openFault (s : State) (n : Nat) (r : Raise) : State :=
  let q := (s.part n).faults
  let e : FaultEntry := ⟨q.nextId, r.kind, r.access, false, r.key, r.addr, r.engine, r.handle, r.position, [r.waiter], false⟩
  s.modFaults n fun q => { q with
    entries := q.entries ++ [e],
    nextId := (q.nextId + 1) % 2 ^ 32,
    waiting := q.waiting ++ [e.record] }

/-- The overflow marker record (R279, R282). -/
def markerRec : FaultRec := ⟨0x7F, 0, false, false, 0, 0, 0, 0, 0, 0⟩

/-- A fault that finds the queue full stalls; the first also sets the marker, ahead of waiting entry records (R279). -/
def State.stallFault (s : State) (n : Nat) (r : Raise) : State :=
  s.modFaults n fun q => { q with
    stalled := q.stalled ++ [⟨r.kind, r.access, r.key, r.addr, r.engine, r.handle, r.position, r.waiter⟩],
    overflows := inc32 q.overflows,
    marker := true,
    waiting := if q.marker then q.waiting else markerRec :: q.waiting }

/-- FAULT_RAISE (R275, R277 to R279): merge, open or stall. -/
def State.raiseFault (s : State) (n : Nat) (r : Raise) : State :=
  let q := (s.part n).faults
  let t :=
    if q.entries.any (fun e => decide (e.key = r.key)) then
      s.modFaults n fun q => { q with entries := q.entries.map fun e => if e.key = r.key then e.merge r else e }
    else if q.entries.length < 1024 then s.openFault n r
    else s.stallFault n r
  t.flushFaults n

/-- A stalled fault as it enters the queue. -/
def Stalled.raise (x : Stalled) : Raise := ⟨x.kind, x.access, x.key, x.addr, x.engine, x.handle, x.position, x.waiter⟩

/-- Give freed places to stalled faults, oldest first; every stalled fault of one key enters together (R279). -/
def State.unstall (s : State) (n : Nat) : List Stalled → State
  | [] => s.modFaults n fun q => { q with marker := decide (q.stalled ≠ []) }
  | x :: xs =>
    let q := (s.part n).faults
    let here := q.entries.any fun e => decide (e.key = x.key)
    let s' := s.modFaults n fun q => { q with stalled := q.stalled.drop 1 }
    if here then
      (s'.modFaults n fun q => { q with
        entries := q.entries.map fun e => if e.key = x.key then e.merge x.raise else e }).unstall n xs
    else if q.entries.length < 1024 then (s'.openFault n x.raise).unstall n xs
    else
      -- no place: stalled faults of a key that has just entered join it, the others stay (R279)
      let keys := q.entries.map fun e => e.key
      s.modFaults n fun q => { q with
        entries := q.entries.map fun e =>
          (q.stalled.filter fun y => decide (y.key = e.key)).foldl (fun e y => e.merge y.raise) e,
        stalled := q.stalled.filter fun y => !keys.contains y.key }

/-- An entry retires, and its place goes to the stalled faults (R277, R279). -/
def State.retireFault (s : State) (n id : Nat) : State :=
  let s' := s.modFaults n fun q => { q with entries := q.entries.filter fun e => decide (e.id ≠ id) }
  (s'.unstall n (s'.part n).faults.stalled).flushFaults n

/-- Change a command that waits on a fault so that it starts again (R280, R481). -/
def State.resumeWaiter (s : State) : Waiter → State
  | .channel r _ => s.setChan r 3 { (s.chan r 3) with stalled := false }
  | .command c => s.modCmd c fun x => if x.phase = .faultWait then { x with phase := .ready } else x

/-- Every command of a firing's running step completes FAULTED (R126, R241, R280). -/
def State.faultStep (s : State) (h : Nat) : State :=
  s.modFiring h fun f => { f with step := f.step.map fun st => { st with faulted := true } }

/-- A request whose transfer is abandoned: a copy goes on with the entry's next transfer, a held position or operation moves
nothing (R280). -/
def MvReq.abandon (q : MvReq) : MvReq :=
  match q.kind with
  | .copy ts => { q with kind := .copy (ts.drop 1) }
  | .gather _ _ _ _ => { q with dead := true }
  | .carry _ _ _ => { q with dead := true }

/-- A waiter abandons its transfer (R280): the channel's oldest request moves nothing, and its step is faulted. A waiting
command is returned, to complete FAULTED. -/
def State.abortWaiter (s : State) : Waiter → State
  | .channel r h =>
    let ch := s.chan r 3
    let reqs := match ch.reqs with
      | [] => []
      | q :: qs => q.abandon :: qs
    (s.setChan r 3 { ch with reqs := reqs, stalled := false }).faultStep h
  | .command _ => s

/-- The commands among waiters (R481). -/
def waiterCmds (ws : List Waiter) : List Nat :=
  ws.filterMap fun w => match w with
    | .command c => some c
    | .channel _ _ => none

/-- Keep only some waiters of a partition's queue; an entry left with no waiter retires (R280). -/
def State.keepWaiters (s : State) (n : Nat) (keep : Waiter → Bool) : State :=
  let s' := s.modFaults n fun q => { q with
    entries := q.entries.map fun e => { e with waiters := e.waiters.filter keep },
    stalled := q.stalled.filter fun x => keep x.waiter,
    marker := q.marker && q.stalled.any fun x => keep x.waiter }
  let empty := ((s'.part n).faults.entries.filter fun e => decide (e.waiters = [])).map fun e => e.id
  s'.forEach empty fun t id => t.retireFault n id

/-- Remove a command's own waiter from its partition's queue. -/
def State.dropCmdWaiter (s : State) (n c : Nat) : State := s.keepWaiters n fun w => decide (w ≠ .command c)

/-- Remove the waiters of a firing's movers (R426). -/
def State.dropFiringWaiters (s : State) (n h : Nat) : State :=
  s.keepWaiters n fun w => match w with
    | .channel _ k => decide (k ≠ h)
    | .command _ => true

/-- Frames of an entry's waiters, as a mask (R282). -/
def State.waiterFrames (s : State) (n : Nat) (e : FaultEntry) : Nat :=
  listMask' (e.waiters.map fun w => match w with
    | .channel r _ => r.frame
    | .command _ => s.portFrame n)
where
  /-- A mask of numbers. -/
  listMask' (l : List Nat) : Nat := l.foldl (fun m f => m ||| 2 ^ f) 0

end Sys2Proof.Machine
end

