-- ==== Sys2Proof/Machine/Numeric.lean ====
section
/-! DEFINITION. Numbers: the element formats, exact dyadic values, rounding to nearest with ties away from zero, conversion and
quantisation (R173 to R185), and the operations of R156 to R158 on FP32. -/

namespace Sys2Proof.Machine

/-! ## Formats (R155, R173) -/

/-- A floating format: fraction bits, exponent of its smallest subnormal, largest finite magnitude code, sign bit
position, infinity code (none: the format has none) and canonical NaN code (none: none). -/
structure FpFmt where
  mb : Nat
  emin : Int
  maxCode : Nat
  width : Nat
  inf : Option Nat
  nan : Option Nat
deriving DecidableEq, Repr

/-- FP32. -/
def fp32F : FpFmt := ⟨23, -149, 0x7F7FFFFF, 32, some 0x7F800000, some 0x7FC00000⟩
/-- FP16. -/
def fp16F : FpFmt := ⟨10, -24, 0x7BFF, 16, some 0x7C00, some 0x7E00⟩
/-- BF16. -/
def bf16F : FpFmt := ⟨7, -133, 0x7F7F, 16, some 0x7F80, some 0x7FC0⟩
/-- FP8 E5M2. -/
def e5m2F : FpFmt := ⟨2, -16, 0x7B, 8, some 0x7C, some 0x7F⟩
/-- FP8 E4M3. -/
def e4m3F : FpFmt := ⟨3, -9, 0x7E, 8, none, some 0x7F⟩
/-- FP4 E2M1. -/
def e2m1F : FpFmt := ⟨1, -1, 7, 4, none, none⟩

/-- The format of a stream, MMA or delta code (R130, R155). -/
inductive Fmt where
  | fp (f : FpFmt)
  /-- two's complement of so many bits -/
  | int (bits : Nat)
  /-- glaze byte, row scale, BIT, RECORD, and the reserved codes -/
  | other (code : Nat)
deriving DecidableEq, Repr

/-- The format of a code of R155. -/
def fmtOf : Nat → Fmt
  | 0 => .fp e4m3F
  | 1 => .fp e5m2F
  | 2 => .int 8
  | 3 => .fp e2m1F
  | 4 => .int 4
  | 5 => .fp bf16F
  | 6 => .fp fp16F
  | 7 => .fp fp32F
  | 8 => .int 32
  | n => .other n

/-- Bits of an element of a code of R155; a RECORD's slots count in units of 8 B (R154). -/
def fmtBits : Nat → Nat
  | 0 => 8
  | 1 => 8
  | 2 => 8
  | 3 => 4
  | 4 => 4
  | 5 => 16
  | 6 => 16
  | 7 => 32
  | 8 => 32
  | 9 => 8
  | 10 => 16
  | 11 => 1
  | 12 => 64
  | _ => 8

/-! ## Values -/

/-- A real number with a signed zero, an infinity or a NaN: (−1)^neg · m · 2^e. -/
inductive Val where
  | nan
  | inf (neg : Bool)
  | fin (neg : Bool) (m : Nat) (e : Int)
deriving DecidableEq, Repr

/-- Plus zero. -/
def Val.zero : Val := .fin false 0 0

/-- An integer as a value. -/
def Val.ofInt (i : Int) : Val := .fin (decide (i < 0)) i.natAbs 0

/-- The sign of a value; a NaN counts as positive. -/
def Val.neg? : Val → Bool
  | .nan => false
  | .inf n => n
  | .fin n _ _ => n

/-- Negation, sign of zero included (R174). -/
def Val.flip : Val → Val
  | .nan => .nan
  | .inf n => .inf (!n)
  | .fin n m e => .fin (!n) m e

/-- Magnitude. -/
def Val.abs : Val → Val
  | .nan => .nan
  | .inf _ => .inf false
  | .fin _ m e => .fin false m e

/-- Finite and not zero, zero, not finite. -/
def Val.isZero : Val → Bool
  | .fin _ 0 _ => true
  | _ => false

/-- Neither infinity nor NaN. -/
def Val.isFinite : Val → Bool
  | .fin _ _ _ => true
  | _ => false

/-- NaN. -/
def Val.isNan : Val → Bool
  | .nan => true
  | _ => false

/-- The signed mantissa of a finite value over the exponent `e0`, at or below its own. -/
def scaledInt (neg : Bool) (m : Nat) (e e0 : Int) : Int :=
  let k : Int := ((m * 2 ^ (e - e0).toNat : Nat) : Int)
  if neg then -k else k

/-- `a < b` for values that are not NaN; +0 and −0 are equal (R174). -/
def Val.lt : Val → Val → Bool
  | .nan, _ => false
  | _, .nan => false
  | .inf n, .inf n' => n && !n'
  | .inf n, .fin _ _ _ => n
  | .fin _ _ _, .inf n => !n
  | .fin n m e, .fin n' m' e' => decide (scaledInt n m e (min e e') < scaledInt n' m' e' (min e e'))

/-- Equality of values, NaN equal to nothing. -/
def Val.eq (a b : Val) : Bool := !a.isNan && !b.isNan && !a.lt b && !b.lt a

/-! ## Rounding (R183) -/

/-- Bits of a number. -/
def bitLen (n : Nat) : Nat := if n = 0 then 0 else n.log2 + 1

/-- The magnitude code of m · 2^e in a format with `mb` fraction bits and smallest subnormal 2^emin, rounded to nearest with
ties away from zero, with an exponent range that has no top: codes above the format's largest mean beyond it. -/
def magCode (mb : Nat) (emin : Int) (m : Nat) (e : Int) : Nat :=
  let u : Int := max emin (e + (bitLen m : Int) - (mb + 1 : Int))
  let q : Nat := if u ≤ e then m * 2 ^ (e - u).toNat else (m + 2 ^ ((u - e).toNat - 1)) / 2 ^ (u - e).toNat
  if q = 0 then 0 else (u - emin).toNat * 2 ^ mb + q

/-- The exact value of a magnitude code. -/
def codeMag (f : FpFmt) (c : Nat) : Nat × Int :=
  let x := c / 2 ^ f.mb
  if x = 0 then (c, f.emin) else (2 ^ f.mb + c % 2 ^ f.mb, f.emin + (x : Int) - 1)

/-- The value that a code of a floating format holds (R173). -/
def FpFmt.decode (f : FpFmt) (code : Nat) : Val :=
  let c := code % 2 ^ (f.width - 1)
  let n := bitAt code (f.width - 1)
  if c ≤ f.maxCode then .fin n (codeMag f c).1 (codeMag f c).2
  else match f.inf with
  | some i => if c = i then .inf n else .nan
  | none => .nan

/-- A magnitude code with its sign. -/
def FpFmt.signed (f : FpFmt) (n : Bool) (c : Nat) : Nat := c + bit n * 2 ^ (f.width - 1)

/-- Two's complement of an integer in `w` bits. -/
def intCode (w : Nat) (i : Int) : Nat := (i % (2 ^ w : Nat)).toNat

/-- The integer that a two's complement code holds. -/
def intOfCode (w c : Nat) : Int := if bitAt c (w - 1) then (c % 2 ^ w : Nat) - (2 ^ w : Nat) else (c % 2 ^ w : Nat)

/-- A value of any element format. -/
def decodeFmt (f : Fmt) (code : Nat) : Val :=
  match f with
  | .fp f => f.decode code
  | .int w => .ofInt (intOfCode w code)
  | .other _ => .zero

/-- A finite value rounded to an integer (R183). -/
def roundInt (n : Bool) (m : Nat) (e : Int) : Int :=
  let q : Nat := if 0 ≤ e then m * 2 ^ e.toNat else (m + 2 ^ ((-e).toNat - 1)) / 2 ^ (-e).toNat
  if n then -(q : Int) else q

/-- Saturate an integer to `w` bits, and whether it saturated. -/
def satInt (w : Nat) (i : Int) : Int × Bool :=
  let hi : Int := 2 ^ (w - 1) - 1
  if hi < i then (hi, true) else if i < -hi - 1 then (-hi - 1, true) else (i, false)

/-! ## Exceptions (R171) -/

/-- Flags that one element raises. -/
structure Flags where
  invalid : Bool
  divzero : Bool
  overflow : Bool
  addr : Bool
  index : Bool
deriving DecidableEq, Repr

/-- None raised. -/
def Flags.none : Flags := ⟨false, false, false, false, false⟩
/-- INVALID. -/
def Flags.inv : Flags := ⟨true, false, false, false, false⟩
/-- DIVZERO. -/
def Flags.dz : Flags := ⟨false, true, false, false, false⟩
/-- OVERFLOW. -/
def Flags.ovf : Flags := ⟨false, false, true, false, false⟩
/-- ADDR. -/
def Flags.adr : Flags := ⟨false, false, false, true, false⟩
/-- INDEX. -/
def Flags.idx : Flags := ⟨false, false, false, false, true⟩

/-- Flags of two parts of one instruction. -/
def Flags.or (a b : Flags) : Flags :=
  ⟨a.invalid || b.invalid, a.divzero || b.divzero, a.overflow || b.overflow, a.addr || b.addr, a.index || b.index⟩

/-- Whether any flag is raised. -/
def Flags.any (a : Flags) : Bool := a.invalid || a.divzero || a.overflow || a.addr || a.index

/-! ## FP32 results (R157, R183 to R185) -/

/-- An exact value rounded to FP32 as an operation's result: beyond the largest finite it is an infinity (R184). -/
def Val.round32 : Val → Val
  | .nan => .nan
  | .inf n => .inf n
  | .fin n m e =>
    let c := magCode 23 (-149) m e
    if 0x7F7FFFFF < c then .inf n else .fin n (codeMag fp32F c).1 (codeMag fp32F c).2

/-- The FP32 code of a value, rounded to FP32 first. -/
def Val.code32 (v : Val) : Word32 :=
  match v with
  | .nan => 0x7FC00000
  | .inf n => if n then 0xFF800000 else 0x7F800000
  | .fin n m e =>
    let c := magCode 23 (-149) m e
    if 0x7F7FFFFF < c then (if n then 0xFF800000 else 0x7F800000) else BitVec.ofNat 32 (fp32F.signed n c)

/-- The value of an FP32 code. -/
def val32 (w : Word32) : Val := fp32F.decode w.toNat

/-- Conversion of an FP32 value to a format (R184): its code, and what it raises. -/
def convertFp (f : FpFmt) (v : Val) : Nat × Flags :=
  match v with
  | .nan => match f.nan with
    | some c => (c, Flags.none)
    | none => (0, Flags.inv)
  | .inf n => match f.inf with
    | some c => (f.signed n c, Flags.none)
    | none => (f.signed n f.maxCode, Flags.ovf)
  | .fin n m e =>
    let c := magCode f.mb f.emin m e
    if f.maxCode < c then (f.signed n f.maxCode, Flags.ovf) else (f.signed n c, Flags.none)

/-- Conversion of an FP32 value to an integer format (R184). -/
def convertInt (w : Nat) (v : Val) : Nat × Flags :=
  match v with
  | .nan => (0, Flags.inv)
  | .inf n => (intCode w (if n then -(2 ^ (w - 1) : Nat) else (2 ^ (w - 1) : Nat) - 1), Flags.ovf)
  | .fin n m e =>
    let r := satInt w (roundInt n m e)
    (intCode w r.1, if r.2 then Flags.ovf else Flags.none)

/-- Conversion to any element format. -/
def convertFmt (f : Fmt) (v : Val) : Nat × Flags :=
  match f with
  | .fp f => convertFp f v
  | .int w => convertInt w v
  | .other _ => (0, Flags.none)

/-! ## Exact arithmetic -/

/-- Exact sum; undefined for infinities of opposite sign. -/
def Val.add (a b : Val) : Val :=
  match a, b with
  | .nan, _ => .nan
  | _, .nan => .nan
  | .inf n, .inf n' => if n = n' then .inf n else .nan
  | .inf n, .fin _ _ _ => .inf n
  | .fin _ _ _, .inf n => .inf n
  | .fin n m e, .fin n' m' e' =>
    let e0 := min e e'
    let r := scaledInt n m e e0 + scaledInt n' m' e' e0
    if r = 0 then .fin (n && n' && decide (m = 0 ∧ m' = 0)) 0 0 else .fin (decide (r < 0)) r.natAbs e0

/-- Exact product; undefined for zero times infinity. -/
def Val.mul (a b : Val) : Val :=
  match a, b with
  | .nan, _ => .nan
  | _, .nan => .nan
  | .inf n, .inf n' => .inf (n != n')
  | .inf n, .fin n' m _ => if m = 0 then .nan else .inf (n != n')
  | .fin n m _, .inf n' => if m = 0 then .nan else .inf (n != n')
  | .fin n m e, .fin n' m' e' => .fin (n != n') (m * m') (e + e')

/-- A positive rational number num / den as m · 2^e, truncated below 80 significant bits: rounding to nearest with ties
away from zero of the truncated value is that of the exact one. -/
def ratVal (num den : Nat) : Nat × Int :=
  if num = 0 ∨ den = 0 then (0, 0)
  else
    let k := 80 + bitLen den - bitLen num
    ((num * 2 ^ k) / den, -(k : Int))

/-- Exact quotient of finite magnitudes as a rational. -/
def quotRat (m : Nat) (e : Int) (m' : Nat) (e' : Int) : Nat × Nat :=
  if e' ≤ e then (m * 2 ^ (e - e').toNat, m') else (m, m' * 2 ^ (e' - e).toNat)

/-- FP32 quotient rounded once (R181: y = v / s). The divisor is finite and not zero. -/
def Val.div32 (a b : Val) : Val :=
  match a, b with
  | .fin n m e, .fin n' m' e' =>
    let r := ratVal (quotRat m e m' e').1 (quotRat m e m' e').2
    (Val.fin (n != n') r.1 r.2).round32
  | .inf n, .fin n' _ _ => .inf (n != n')
  | _, _ => .nan

/-! ## Scales (R177 to R182) -/

/-- The value of a glaze byte (R177). -/
def glazeVal (c : Nat) : Val :=
  let e := c / 8 % 32
  let f := c % 8
  if e = 0 then .fin false f (-17) else .fin false (8 + f) ((e : Int) - 18)

/-- The value of a row scale (R178). -/
def rowScaleVal (r : Nat) : Val :=
  let e := r / 256 % 256
  if e = 0 ∨ e = 255 then .zero else .fin false (256 + r % 256) ((e : Int) - 135)

/-- The combined scale of a block, rounded once to FP32 and kept finite (R179). -/
def combined (glaze rowScale : Nat) : Val :=
  match ((glazeVal glaze).mul (rowScaleVal rowScale)).round32 with
  | .inf _ => .fin false (codeMag fp32F 0x7F7FFFFF).1 (codeMag fp32F 0x7F7FFFFF).2
  | v => v

/-- Dequantising (R180). -/
def dequantise (f : Fmt) (code : Nat) (s : Val) : Val := if s.isZero then .zero else ((decodeFmt f code).mul s).round32

/-- qmax of a format as a value (R176). -/
def qmaxVal : Fmt → Val
  | .fp f => .fin false (codeMag f f.maxCode).1 (codeMag f f.maxCode).2
  | .int w => .ofInt (2 ^ (w - 1) - 1)
  | .other _ => .zero

/-- What quantisation met (R181). -/
inductive QEvent where
  | none | saturated | nan
deriving DecidableEq, Repr

/-- Quantising (R181). -/
def quantise (f : Fmt) (v s : Val) : Nat × QEvent :=
  if s.isZero then (0, .none)
  else if v.isNan then (0, .nan)
  else
    let y := v.div32 s
    let q := qmaxVal f
    let top := fun n : Bool => match f with
      | .fp g => g.signed n g.maxCode
      | .int w => intCode w (if n then -((2 ^ (w - 1) : Nat) - 1 : Int) else (2 ^ (w - 1) : Nat) - 1)
      | .other _ => 0
    if q.lt y.abs then (top y.neg?, .saturated)
    else match f, y with
    | .fp g, .fin n m e => (g.signed n (min (magCode g.mb g.emin m e) g.maxCode), .none)
    | .int w, .fin n m e => (intCode w (roundInt n m e), .none)
    | _, _ => (0, .none)

/-- The larger magnitude of two values, NaN left out (R182). -/
def maxMag (a b : Val) : Val := if b.isNan then a else if a.lt b.abs then b.abs else a

/-- Smallest code from `c` up that meets the bound, over `k` codes; 0xFF if none does. -/
def glazeFrom (q rs m : Val) : Nat → Nat → Nat
  | 0, _ => 0xFF
  | k + 1, c => if !((q.mul ((glazeVal c).mul rs)).lt m) then c else glazeFrom q rs m k (c + 1)

/-- The glaze code of a block with largest magnitude `m`, above 0 (R182). -/
def chooseGlaze (f : Fmt) (rowScale : Nat) (m : Val) : Nat :=
  match m with
  | .inf _ => 0xFF
  | _ => glazeFrom (qmaxVal f) (rowScaleVal rowScale) m 256 0

/-- Every element of a block, with the glaze byte chosen for it (R84, R160, R181, R182): the glaze byte, the codes, and
whether any element saturated or was a NaN. -/
def quantBlock (f : Fmt) (oldGlaze rowScale : Nat) (vs : List Val) : Nat × List Nat × Bool × Bool :=
  let m := vs.foldl maxMag .zero
  let g := if m.isZero then oldGlaze else chooseGlaze f rowScale m
  let s := combined g rowScale
  let qs := vs.map fun v => quantise f v s
  (g, qs.map (fun q => q.1), qs.any (fun q => decide (q.2 = .saturated)), qs.any (fun q => decide (q.2 = .nan)))

/-! ## The functions of R158 -/

/-- FP32 codes in the order of their values, as integers: 0 for both zeros. -/
def ordOf (v : Val) : Int :=
  let c : Nat := v.code32.toNat % 2 ^ 31
  if v.neg? then -(c : Int) else c

/-- A value some units in the last place further, its sign kept at zero; never past an infinity. -/
def stepUlps (v : Val) (d : Int) : Val :=
  match v with
  | .fin n _ _ =>
    let o := ordOf v + d
    let c := min o.natAbs 0x7F800000
    if o = 0 then .fin n 0 0 else fp32F.decode (fp32F.signed (decide (o < 0)) c)
  | _ => v

/-- A result within 1 unit in the last place of an exact value (R158): `lo` is the FP32 value truncated toward zero, and
`exact` says whether it is the value itself. The free value picks among the FP32 values in reach (log 13). -/
def withinOne (lo : Val) (exact : Bool) (n : Nat) : Val :=
  let away : Int := if lo.neg? then -1 else 1
  if exact then stepUlps lo (Config.ulpOne n % 3 - 1) else stepUlps lo ((Config.ulpOne n % 2) * away)

/-- A result within 2 units in the last place of the rounded value (R158; log 13). -/
def withinTwo (v : Val) (n : Nat) : Val := stepUlps v (Config.ulpTwo n % 5 - 2)

/-- The largest magnitude code from `c` up by the bits below `k` that `ok` allows. -/
def searchCode (ok : Nat → Bool) : Nat → Nat → Nat
  | 0, c => c
  | k + 1, c => searchCode ok k (if ok (c + 2 ^ k) then c + 2 ^ k else c)

/-- FP32 quotient rounded once, for any operands (R84, R86, R185). -/
def Val.quot32 (a b : Val) : Val :=
  match a, b with
  | .nan, _ => .nan
  | _, .nan => .nan
  | .inf _, .inf _ => .nan
  | .inf x, .fin y _ _ => .inf (x != y)
  | .fin x _ _, .inf y => .fin (x != y) 0 0
  | .fin x m e, .fin y m' e' =>
    if m' = 0 then (if m = 0 then .nan else .inf (x != y)) else Val.div32 (.fin x m e) (.fin y m' e')

/-- FP32 square root rounded once to nearest, ties away from zero (R86; log 32). -/
def Val.sqrt32 (a : Val) : Val :=
  match a with
  | .nan => .nan
  | .inf true => .nan
  | .inf false => .inf false
  | .fin neg m e =>
    if m = 0 then .fin neg 0 0
    else if neg then .nan
    else
      let within := fun v : Val => !(Val.lt (.fin false m e) (v.mul v))
      let c := searchCode (fun c => decide (c ≤ 0x7F7FFFFF) && within (fp32F.decode c)) 31 0
      let mid := ((fp32F.decode c).add (fp32F.decode (c + 1))).mul (.fin false 1 (-1))
      if within mid then fp32F.decode (c + 1) else fp32F.decode c

/-- VDIV (R156, R158, R171, R185). -/
def divide (a b : Val) (n : Nat) : Val × Flags :=
  match a, b with
  | .nan, _ => (.nan, Flags.none)
  | _, .nan => (.nan, Flags.none)
  | .inf _, .inf _ => (.nan, Flags.inv)
  | .inf x, .fin y _ _ => (.inf (x != y), Flags.none)
  | .fin x _ _, .inf y => (.fin (x != y) 0 0, Flags.none)
  | .fin x m e, .fin y m' e' =>
    if m' = 0 then (if m = 0 then (.nan, Flags.inv) else (.inf (x != y), Flags.dz))
    else if m = 0 then (.fin (x != y) 0 0, Flags.none)
    else
      let r := quotRat m e m' e'
      let ok := fun c : Nat => decide (c ≤ 0x7F7FFFFF) &&
        (let k := codeMag fp32F c
         if 0 ≤ k.2 then decide (k.1 * 2 ^ k.2.toNat * r.2 ≤ r.1) else decide (k.1 * r.2 ≤ r.1 * 2 ^ (-k.2).toNat))
      let c := searchCode ok 31 0
      let k := codeMag fp32F c
      let exact := if 0 ≤ k.2 then decide (k.1 * 2 ^ k.2.toNat * r.2 = r.1) else decide (k.1 * r.2 = r.1 * 2 ^ (-k.2).toNat)
      if 0x7F7FFFFF < magCode 23 (-149) (ratVal r.1 r.2).1 (ratVal r.1 r.2).2 then (.inf (x != y), Flags.none)
      else (withinOne (.fin (x != y) k.1 k.2) exact n, Flags.none)

/-- VRSQRT (R156, R158, R171, R185). -/
def rsqrt (a : Val) (n : Nat) : Val × Flags :=
  match a with
  | .nan => (.nan, Flags.none)
  | .inf true => (.nan, Flags.inv)
  | .inf false => (.zero, Flags.none)
  | .fin neg m e =>
    if m = 0 then (.inf neg, Flags.dz)
    else if neg then (.nan, Flags.inv)
    else
      let sq := fun c : Nat => let k := codeMag fp32F c; (k.1 * k.1 * m, k.2 + k.2 + e)
      let below := fun c : Nat => let v := sq c
        if 0 ≤ v.2 then decide (v.1 * 2 ^ v.2.toNat ≤ 1) else decide (v.1 ≤ 2 ^ (-v.2).toNat)
      let same := fun c : Nat => let v := sq c
        if 0 ≤ v.2 then decide (v.1 * 2 ^ v.2.toNat = 1) else decide (v.1 = 2 ^ (-v.2).toNat)
      let c := searchCode (fun c => decide (c ≤ 0x7F7FFFFF) && below c) 31 0
      (withinOne (fp32F.decode c) (same c) n, Flags.none)

/-- Fraction bits of the fixed-point numbers below. -/
def fixBits : Nat := 256

/-- ln 2 in fixed point: the sum of 2 / ((2k + 1) · 3^(2k + 1)). -/
def ln2Fix : Nat := (List.range 90).foldl (fun s k => s + 2 ^ (fixBits + 1) / ((2 * k + 1) * 3 ^ (2 * k + 1))) 0

/-- e^r for r from 0 to ln 2 in fixed point, by its power series. -/
def expSeries (r : Nat) : Nat → Nat → Nat → Nat → Nat
  | 0, _, _, sum => sum
  | k + 1, i, term, sum => let t := term * r / (i * 2 ^ fixBits); expSeries r k (i + 1) t (sum + t)

/-- e^x for a rational x = num / den at or above 0, as m · 2^k; correct to more than 200 bits. -/
def expPos (num den : Nat) : Nat × Nat :=
  let x := num * 2 ^ fixBits / den
  let k := x / ln2Fix
  (expSeries (x - k * ln2Fix) 70 1 (2 ^ fixBits) (2 ^ fixBits), k)

/-- e^x as a rational, for x = num / den. -/
def expRat (neg : Bool) (num den : Nat) : Nat × Nat :=
  let p := expPos num den
  if neg then (2 ^ fixBits, p.1 * 2 ^ p.2)
  else (p.1 * 2 ^ p.2, 2 ^ fixBits)

/-- A signed rational rounded to FP32. -/
def ratRound (neg : Bool) (num den : Nat) : Val := (Val.fin neg (ratVal num den).1 (ratVal num den).2).round32

/-- A finite magnitude as a rational. -/
def magRat (m : Nat) (e : Int) : Nat × Nat := if 0 ≤ e then (m * 2 ^ e.toNat, 1) else (m, 2 ^ (-e).toNat)

/-- eᵃ rounded to FP32 (R156). -/
def expVal : Val → Val
  | .nan => .nan
  | .inf n => if n then .zero else .inf false
  | .fin n m e =>
    let r := magRat m e
    if 128 * r.2 < r.1 then (if n then .zero else .inf false)
    else let p := expRat n r.1 r.2; ratRound false p.1 p.2

/-- 1 ÷ (1 + e⁻ᵃ) rounded to FP32. -/
def sigmVal : Val → Val
  | .nan => .nan
  | .inf n => if n then .zero else .fin false 1 0
  | .fin n m e =>
    let r := magRat m e
    if 128 * r.2 < r.1 then (if n then .zero else .fin false 1 0)
    else let p := expRat (!n) r.1 r.2; ratRound false p.2 (p.2 + p.1)

/-- tanh a rounded to FP32. -/
def tanhVal : Val → Val
  | .nan => .nan
  | .inf n => .fin n 1 0
  | .fin n m e =>
    let r := magRat m e
    if 128 * r.2 < r.1 then .fin n 1 0
    else let p := expRat false (2 * r.1) r.2; ratRound n (p.1 - p.2) (p.1 + p.2)

/-- 0.5 · a · (1 + tanh(0.797885 · (a + 0.044715 · a³))) rounded to FP32: a ÷ (1 + e⁻²ᵘ). Undefined at −∞ (R185). -/
def geluVal : Val → Val × Flags
  | .nan => (.nan, Flags.none)
  | .inf n => if n then (.nan, Flags.inv) else (.inf false, Flags.none)
  | .fin n m e =>
    let r := magRat m e
    if 32 * r.2 < r.1 then (if n then .fin true 0 0 else .fin false m e, Flags.none)
    else
      -- 2u = 2 · 797885 / 10⁶ · (a + 44715 / 10⁶ · a³)
      let num := 2 * 797885 * (r.1 * r.2 * r.2 * 1000000 + 44715 * r.1 * r.1 * r.1)
      let den := 1000000 * 1000000 * r.2 * r.2 * r.2
      let p := expRat (!n) num den
      (ratRound n (r.1 * p.2) (r.2 * (p.2 + p.1)), Flags.none)

end Sys2Proof.Machine
end

