-- ==== Sys2Proof/Machine/Operands.lean ====
section
/-! DEFINITION. Every operand form of the bead: scalar registers, bead references, MMA operand registers, stream descriptors,
accumulator selections, and the instruction words that a step program holds (R110 to R132, R144, R151 to R155, R167). -/

namespace Sys2Proof.Machine

/-! ## Scalar registers (R111) -/

/-- A context of a bead. -/
def Bead.ctx (b : Bead) (c : Nat) : Ctx := Sparse.read Ctx.reset b.ctxs c

/-- Replace a context. -/
def Bead.setCtx (b : Bead) (c : Nat) (x : Ctx) : Bead := { b with ctxs := Sparse.write Ctx.reset b.ctxs c x }

/-- A scalar register; x0 reads 0. -/
def Ctx.reg (x : Ctx) (r : BitVec 4) : Word64 := if r = 0 then 0 else Sparse.read 0#64 x.regs r.toNat

/-- Write a scalar register; writes to x0 are ignored. -/
def Ctx.setReg (x : Ctx) (r : BitVec 4) (v : Word64) : Ctx :=
  if r = 0 then x else { x with regs := Sparse.write 0#64 x.regs r.toNat v }

/-- IMM of a CTRL instruction, sign-extended (R117). -/
def immS (imm : BitVec 42) : Word64 := imm.signExtend 64

/-- Bits of IMM as a number. -/
def immBits (imm : BitVec 42) (hi lo : Nat) : Nat := bits imm.toNat hi lo

/-- The bead that bits [31:0] of a register name (R119, R121). -/
def beadOfReg (w : Word64) : BeadId := BeadId.ofRef (w.toNat % 2 ^ 32)

/-- A space-3 address: bead in bits [63:32], offset in [13:0] (R125). -/
def space3 (w : Word64) : BeadId × Nat := (BeadId.ofRef (bits w.toNat 63 32), bits w.toNat 13 0)

/-! ## MMA operands (R129, R130, R132, R134) -/

/-- Byte address of element `e` of the operand at k-step `k`: in a normal feed elements of `w` bits lie one after
another; in a transposed feed they lie ESTRIDE apart (R132). -/
def feedBit (reg : Word64) (transposed : Bool) (k e w : Nat) : Nat :=
  let base := bits reg.toNat 15 0 + k * bits reg.toNat 31 16
  if transposed then (base + e * bits reg.toNat 47 32) * 8 else base * 8 + e * w

/-- A `w`-bit element of scratch at a bit address, modulo 16 KiB (R132). -/
def State.scratchElem (s : State) (b : BeadId) (bit w : Nat) : Nat :=
  s.scratchNat b (bit / 8) ((w + 7) / 8) / 2 ^ (bit % 8) % 2 ^ w

/-- Elements of one operand in a k-step: 16 in the 4-bit formats, 8 otherwise (R129). -/
def mmaElems (fmt : Nat) : Nat := if fmt = 3 ∨ fmt = 4 then 16 else 8

/-- Bytes of one operand in a k-step: 16 in the 16-bit formats, 8 otherwise (R129, R132). -/
def mmaBytes (fmt : Nat) : Nat := if fmt = 5 ∨ fmt = 6 then 16 else 8

/-- The weight's format: with WALT the other FP8 encoding (R130). -/
def weightFmt (m : MmaFields) : Nat := if m.walt && decide (m.fmt.toNat < 2) then 1 - m.fmt.toNat else m.fmt.toNat

/-- Whether ARRAYS names an array (R130). -/
def mmaArray (m : MmaFields) (a : Nat) : Bool := m.arrays.getLsbD a

/-- Whether a cell lies in a region of PACK (R134). -/
def inRegion (pack i j : Nat) : Bool := decide (i / (8 / 2 ^ pack) = j / (8 / 2 ^ pack))

/-- Array-operations of an MMA for each array: four quadrants in 16-bit formats, two with PACK 1 or above (R129, R134). -/
def mmaOps (m : MmaFields) : Nat :=
  (m.k.toNat + 1) * (if m.fmt = 5 ∨ m.fmt = 6 then (if m.pack = 0 then 4 else 2) else 1)

/-! ## Streams (R153, R154, R155) -/

/-- A stream descriptor. -/
structure Stream' where
  base : Nat
  nib : Bool
  stride : Int
  fmt : Nat
deriving DecidableEq, Repr

/-- The stream descriptor that a register holds (R154). -/
def streamOf (w : Word64) : Stream' :=
  ⟨bits w.toNat 13 0, w.getLsbD 14, intOfCode 16 (bits w.toNat 31 16), bits w.toNat 35 32⟩

/-- Bit address of element `e` (R154); a BIT stream counts bits from BASE (R155). -/
def Stream'.bitOf (t : Stream') (e : Nat) : Int :=
  (t.base * 8 + bit t.nib * 4 : Nat) + e * t.stride * (fmtBits t.fmt : Nat)

/-- An element lies inside scratch and is aligned to its size (R154): its bit address, or none. -/
def Stream'.at? (t : Stream') (e : Nat) : Option Nat :=
  let i := t.bitOf e
  let w := fmtBits t.fmt
  if 0 ≤ i ∧ i.toNat + w ≤ 16384 * 8 ∧ i.toNat % w = 0 then some i.toNat else none

/-- Write a `w`-bit element of scratch at a bit address, leaving the neighbours in its byte. -/
def State.setScratchElem (s : State) (b : BeadId) (bitAddr w v : Nat) : State :=
  if w < 8 then
    let old := s.scratchNat b (bitAddr / 8) 1
    let sh := 2 ^ (bitAddr % 8)
    s.writeScratch b (bitAddr / 8) [BitVec.ofNat 8 (old - old / sh % 2 ^ w * sh + v % 2 ^ w * sh)]
  else s.writeScratch b (bitAddr / 8) (leBytes (w / 8) v)

/-! ## Accumulators (R133, R167) -/

/-- Key of a cell. -/
def accKey (array bank i j : Nat) : Nat := array * 128 + bank * 64 + 8 * i + j

/-- A cell. -/
def Bead.cell (b : Bead) (array bank i j : Nat) : Word32 := Sparse.read 0#32 b.acc (accKey array bank i j)

/-- Whether a bank holds INT32. -/
def Bead.isInt (b : Bead) (array bank : Nat) : Bool := Sparse.read false b.bankInt (array * 2 + bank)

/-- An accumulator selection (R167): the array and cell of element `e`. -/
def accCell (sel : Word64) (e : Nat) : Nat × Nat × Nat :=
  let array := if sel.getLsbD 3 then e / 64 else bit (sel.getLsbD 0)
  let k := e % 64
  if sel.getLsbD 2 then (array, k % 8, k / 8) else (array, k / 8, k % 8)

/-- The bank of an accumulator selection. -/
def accBank (sel : Word64) : Nat := bit (sel.getLsbD 1)

/-! ## Histogram table (R187) -/

/-- LOW of a histogram entry. -/
def histLow (w : Word32) : Int := intOfCode 8 (bits w.toNat 7 0)

/-- ENABLE of a histogram entry. -/
def histEnable (w : Word32) : Bool := w.getLsbD 8

/-! ## Instruction words (R115 to R119, R125, R130, R144, R151, R152, R255) -/

/-- An instruction of a thread program. -/
inductive BeadInstr where
  | ctrl (op : Nat) (rd rs rt : BitVec 4) (imm : BitVec 42)
  | wait (counter : BitVec 5) (value : BitVec 16) (scope : BitVec 3)
  | signal (counter : BitVec 5) (target : BitVec 4) (scope : BitVec 3)
  | mma (m : MmaFields)
  | mv (m : MvFields)
  | coil (land : Bool) (k : CoilFields)
  | vec (op clen : Nat) (v : VecFields)
deriving DecidableEq, Repr

/-- Bits [hi:lo] of a word as a bit vector. -/
def field (w : Word64) (n lo : Nat) : BitVec n := w.extractLsb' lo n

/-- The fields of an MMA word (R130). -/
def mmaOf (w : Word64) : MmaFields where
  fmt := field w 3 57
  walt := w.getLsbD 56
  arrays := field w 2 54
  bank := field w 1 53
  clear := w.getLsbD 52
  pack := field w 2 50
  ta := w.getLsbD 49
  tw := w.getLsbD 48
  wsrc := w.getLsbD 47
  wport := field w 1 46
  k := field w 12 34
  a0 := field w 4 30
  a1 := field w 4 26
  w := field w 4 22
  evt := field w 5 17
  evtEn := w.getLsbD 16

/-- The fields of an MV word (R125). -/
def mvOf (w : Word64) : MvFields where
  channel := field w 2 58
  src := field w 4 54
  dst := field w 4 50
  len := field w 4 46
  srcSpace := field w 2 44
  dstSpace := field w 2 42
  evt := field w 5 37
  evtEn := w.getLsbD 36
  prog := field w 12 24

/-- The fields of a COIL word (R144). -/
def coilOf (w : Word64) : CoilFields where
  coilId := field w 12 46
  addr := field w 4 42
  count := field w 16 26
  evt := field w 5 21
  evtEn := w.getLsbD 20

/-- The fields of the two words of a VEC instruction (R151, R152). -/
def vecOf (w u : Word64) : VecFields where
  dsel := field w 3 49
  asel := field w 3 46
  bsel := field w 3 43
  csel := field w 3 40
  dst := field w 4 36
  a := field w 4 32
  b := field w 4 28
  c := field w 4 24
  n := field w 13 11
  mask := field w 4 7
  men := w.getLsbD 6
  minv := w.getLsbD 5
  mzero := w.getLsbD 4
  imm := field u 32 32
  aux := field u 16 16
  evt := field u 5 11
  evtEn := u.getLsbD 10
  slot := field u 6 0

/-- Which operands an operation of R156 lists: A, B, C, and whether it writes a stream at DSEL. -/
def vecShape : Nat → Option (Bool × Bool × Bool)
  | 0x01 => some (true, true, false)
  | 0x02 => some (true, true, false)
  | 0x03 => some (true, true, false)
  | 0x04 => some (true, true, true)
  | 0x05 => some (true, true, false)
  | 0x06 => some (true, true, false)
  | 0x07 => some (true, false, false)
  | 0x08 => some (true, false, false)
  | 0x09 => some (true, false, false)
  | 0x0A => some (true, true, false)
  | 0x0B => some (true, false, false)
  | 0x0C => some (true, false, false)
  | 0x0D => some (true, false, false)
  | 0x0E => some (true, false, false)
  | 0x0F => some (true, false, false)
  | 0x10 => some (true, true, true)
  | 0x11 => some (true, true, false)
  | 0x12 => some (true, true, false)
  | 0x13 => some (true, true, false)
  | 0x18 => some (true, true, true)
  | 0x19 => some (true, false, false)
  | 0x1A => some (true, false, true)
  | 0x20 => some (true, false, false)
  | 0x21 => some (true, false, false)
  | 0x22 => some (true, false, false)
  | 0x23 => some (true, false, false)
  | 0x28 => some (true, true, false)
  | 0x30 => some (true, true, true)
  | 0x31 => some (true, false, false)
  | 0x3F => some (false, false, false)
  | _ => none

/-- The first instruction of a program and the words after it; none where the words set a reserved class, opcode, field
value or bit (R115, R116). -/
def parseInstr : List Word64 → Option (BeadInstr × List Word64)
  | [] => none
  | w :: rest =>
    match bits w.toNat 63 60 with
    | 0 =>
      let op := bits w.toNat 59 54
      if op ≤ 0x0B ∨ (0x10 ≤ op ∧ op ≤ 0x12) ∨ op = 0x18 ∨ op = 0x1E ∨ op = 0x1F then
        some (.ctrl op (field w 4 50) (field w 4 46) (field w 4 42) (field w 42 0), rest)
      else none
    | 1 =>
      let scope := field w 3 30
      if bits w.toNat 29 0 ≠ 0 ∨ 4 < scope.toNat then none
      else match bits w.toNat 59 58 with
      | 0 => if bits w.toNat 36 33 ≠ 0 then none else some (.wait (field w 5 53) (field w 16 37) scope, rest)
      | 1 => some (.signal (field w 5 53) (field w 4 33) scope, rest)
      | _ => none
    | 2 =>
      let m := mmaOf w
      if bits w.toNat 15 0 ≠ 0 ∨ m.fmt = 7 ∨ m.arrays = 0 ∨ (m.walt ∧ 1 < m.fmt.toNat) ∨
          ((m.ta ∨ m.tw) ∧ (m.fmt = 3 ∨ m.fmt = 4)) then none
      else some (.mma m, rest)
    | 4 =>
      match rest with
      | [] => none
      | u :: rest' =>
        let v := vecOf w u
        let op := bits w.toNat 59 52
        match vecShape op with
        | none => none
        | some (a, b, c) =>
          if bits w.toNat 3 0 ≠ 0 ∨ bits u.toNat 7 6 ≠ 0 ∨ (v.dsel ≠ 0 ∧ v.dsel.toNat < 4) ∨ v.bsel = 1 ∨ v.csel = 1 ∨
              (!a ∧ (v.asel ≠ 0 ∨ v.a ≠ 0)) ∨ (!b ∧ (v.bsel ≠ 0 ∨ (v.b ≠ 0 ∧ op ≠ 0x1A))) ∨ (!c ∧ (v.csel ≠ 0 ∨ v.c ≠ 0)) ∨
              (op ≠ 0x30 ∧ v.slot ≠ 0) then none
          else some (.vec op (bits u.toNat 9 8) v, rest')
    | 5 =>
      let m := mvOf w
      let three := m.channel = 3
      if bits w.toNat 23 0 ≠ 0 ∨ (three ∧ (m.src ≠ 0 ∨ m.dst ≠ 0 ∨ m.len ≠ 0 ∨ m.srcSpace ≠ 0 ∨ m.dstSpace ≠ 0)) ∨
          (¬ three ∧ m.prog ≠ 0) then none
      else some (.mv m, rest)
    | 6 =>
      if bits w.toNat 19 0 ≠ 0 then none
      else match bits w.toNat 59 58 with
      | 0 => some (.coil false (coilOf w), rest)
      | 1 => some (.coil true (coilOf w), rest)
      | _ => none
    | _ => none

/-- The instructions of a program; none where a word is reserved. `fuel` is the number of words. -/
def parseProgram : Nat → List Word64 → Option (List BeadInstr)
  | _, [] => some []
  | 0, _ :: _ => none
  | k + 1, w :: ws =>
    match parseInstr (w :: ws) with
    | none => none
    | some (i, rest) => (parseProgram k rest).map fun l => i :: l

end Sys2Proof.Machine
end

