-- ==== Sys2Proof/Machine/Flags.lean ====
section
/-! DEFINITION. Event counters and the waits they release, the vector exception word, and the counters and marks that an
instruction leaves on its step (R118, R119, R126, R171, R172). -/

namespace Sys2Proof.Machine

/-! ## Event counters (R118, R119) -/

/-- Nothing ordered. -/
def Known.none : Known := ⟨[], []⟩

/-- What two sets order. -/
def Known.join (a b : Known) : Known :=
  ⟨a.seqs ++ b.seqs.filter fun p => !a.seqs.contains p, a.regions ++ b.regions.filter fun g => !a.regions.contains g⟩

/-- The narrower of a release's scope and an acquire's has an instance that contains both beads (R254, R258). -/
def Release.pairs (r : Release) (scope : Nat) (b : BeadId) : Bool :=
  match min r.scope scope with
  | 0 => decide (r.bead = b)
  | 1 => decide (r.bead.rod = b.rod)
  | 2 => decide (r.bead.frame = b.frame)
  | _ => true

/-- The writes that a WAIT of `value` on counter `k` acquires: those of the releases up to the one that releases it, where the
scopes pair (R257, R258). -/
def Bead.acquired (x : Bead) (b : BeadId) (k value scope : Nat) : Known :=
  x.releases.foldl (fun a p => if p.1 = k ∧ p.2.count ≤ value ∧ p.2.pairs scope b then a.join p.2.known else a) Known.none

/-- A waiting context whose counter has reached its value goes on, with what `acquired` gives for its wait ordered before it. -/
def Ctx.release (x : Ctx) (k n : Nat) (acquired : Waiting → Known) : Ctx :=
  match x.waiting with
  | some w => if w.counter = k ∧ w.value ≤ n then { x with waiting := none, known := x.known.join (acquired w) } else x
  | none => x

/-- Let every context of a bead that waits on counter `k` go on, if the counter is high enough. -/
def Bead.release (x : Bead) (b : BeadId) (k n : Nat) : Bead :=
  (List.range 8).foldl (fun y c => y.setCtx c ((y.ctx c).release k n fun w => x.acquired b k w.value w.scope)) x

/-- An event counter. -/
def Bead.counter (b : Bead) (k : Nat) : BitVec 16 := Sparse.read 0#16 b.counters k

/-- Add 1 to an event counter and release its waiters; an increment lost to saturation counts in BEAD_EVT_SAT. -/
def State.bump (s : State) (b : BeadId) (k : Nat) : State :=
  let n := (s.bead b).counter k
  if n = 0xFFFF then s.modCounters b.frame fun c => { c with evtSat := inc32 c.evtSat }
  else s.modBead b fun x =>
    ({ x with counters := Sparse.write 0#16 x.counters k (n + 1) } : Bead).release b k (n.toNat + 1)

/-- An increment by a release: the counter holds the release until the step ends, unless it orders nothing (R256 to R258). -/
def State.bumpRelease (s : State) (b : BeadId) (k scope : Nat) (source : BeadId) (known : Known) : State :=
  let n := ((s.bead b).counter k).toNat
  (s.when (decide (known ≠ Known.none)) fun s => s.modBead b fun x =>
    { x with releases := x.releases ++ [(k, ⟨n + 1, scope, source, known⟩)] }).bump b k

/-- The completion of an instruction with EVT and EVT_EN (R118). -/
def State.event (s : State) (b : BeadId) (evt : Nat) (en : Bool) : State := if en then s.bump b evt else s

/-- Change what every context, counter, mover request and pair event holds as ordered before it. -/
def State.mapKnown (s : State) (g : Known → Known) : State :=
  let ctx := fun x : Ctx => { x with known := g x.known }
  let bead := fun x : Bead => { x with
    ctxs := Sparse.mapAll Ctx.reset ctx x.ctxs,
    releases := x.releases.map fun p => (p.1, { p.2 with known := g p.2.known }) }
  let chan := fun x : MvChannel => { x with reqs := x.reqs.map fun q => { q with wrote := g q.wrote } }
  let frame := fun x : Frame => { x with stream := { x.stream with
    events := x.stream.events.map fun e => { e with known := g e.known } } }
  let rod := fun x : Rod => { x with chans := Sparse.mapAll MvChannel.reset chan x.chans }
  { s with
    beads := Sparse.mapAll Bead.reset bead s.beads,
    rods := Sparse.mapAll Rod.reset rod s.rods,
    frames := Sparse.mapAll Frame.reset frame s.frames }

/-! ## The step of a bead -/

/-- The firing that holds a rod. -/
def State.rodFiring (s : State) (r : RodId) : Option Firing := s.firings.find? fun f => f.rods.contains r

/-- The firing and the running step of a bead. -/
def State.stepOf (s : State) (b : BeadId) : Option (Firing × Step) :=
  match s.rodFiring b.rod with
  | some f => f.step.map fun st => (f, st)
  | none => none

/-- The running step of a bead's firing completes FAULTED (R126, R172). -/
def State.faultBead (s : State) (b : BeadId) : State :=
  match s.rodFiring b.rod with
  | some f => s.faultStep f.handle
  | none => s

/-- BEAD_PIN_ERRS rises, and every command of the step completes FAULTED (R126). -/
def State.pinError (s : State) (b : BeadId) : State :=
  (s.modCounters b.frame fun c => { c with pinErrs := inc32 c.pinErrs }).faultBead b

/-! ## The exception word (R171) -/

/-- The flags of an element as bits [4:0]. -/
def Flags.bits (f : Flags) : Nat := bit f.invalid + bit f.divzero * 2 + bit f.overflow * 4 + bit f.addr * 8 + bit f.index * 16

/-- The exception word after an instruction that raised `f`: its flags join the word, FIRST_OP and FIRST_CTX are taken
while the word is 0, and COUNT rises by 1 up to 4,095. -/
def excAfter (w : Word32) (f : Flags) (op ctx : Nat) : Word32 :=
  if !f.any then w
  else
    let flags := Nat.lor (w.toNat % 256) f.bits
    let first := if w = 0 then op % 256 * 2 ^ 8 + ctx % 16 * 2 ^ 16 else w.toNat % 2 ^ 20 / 2 ^ 8 * 2 ^ 8
    BitVec.ofNat 32 (flags + first + min (w.toNat / 2 ^ 20 + 1) 4095 * 2 ^ 20)

/-- What an instruction raised, on its bead; ADDR also raises BEAD_VEC_ADDR and faults the step (R172). -/
def State.raise (s : State) (b : BeadId) (f : Flags) (op ctx : Nat) : State :=
  let t := s.modBead b fun x => { x with exc := excAfter x.exc f op ctx }
  if f.addr then (t.modCounters b.frame fun c => { c with vecAddr := inc32 c.vecAddr }).faultBead b else t

end Sys2Proof.Machine
end

