-- ==== Sys2Proof/Machine/Complete.lean ====
section
/-! DEFINITION. The end of a command: fence signal, completion record or shadow entry, chain (R303 to R312, R336 to R343). -/

namespace Sys2Proof.Machine

/-- Ring entries N (R288, R289). -/
def Ring.size (r : Ring) : Nat := 2 ^ r.log2.toNat

/-- Whether a completion position is free: (p − CPL_HEAD) mod 65,536 < N (R309). -/
def Ring.hasSpace (r : Ring) : Bool := decide ((r.cplPos + 65536 - r.cplHead.toNat) % 65536 < r.size)

/-- `a` is at or past `b` in serial order (R303). -/
def fencePast (a b : Word32) : Bool := !(a - b).msb

/-- FENCE_SET (R303): set if past the current value. -/
def State.setFence (s : State) (n k : Nat) (v : Word32) : State :=
  s.modPart n fun p =>
    let cur := Sparse.read 0#32 p.fences k
    if fencePast v cur && decide (v ≠ cur) then { p with fences := Sparse.write 0#32 p.fences k v } else p

/-- INDIRECT of FLAGS (R296). -/
def Desc.indirect (d : Desc) : Bool := d.flags.getLsbD 0

/-- WAIT of FLAGS. -/
def Desc.waits (d : Desc) : Bool := d.flags.getLsbD 1

/-- SIGNAL of FLAGS, for a completion code: whatever the code with SIGNAL_ANY (R303). -/
def Desc.signals (d : Desc) (code : Nat) : Bool := d.flags.getLsbD 2 && (decide (code = 0) || d.flags.getLsbD 3)

/-- Whether a completion code starts the chain (R304). -/
def Desc.chains (d : Desc) (code : Nat) : Bool := (d.flags.getLsbD 4 && decide (code = 0)) || d.flags.getLsbD 5

/-- The 32 B of a completion record (R308, R2): CODE in bits [3:0] of its byte, CHAINED in bit 4. -/
def CplRecord.bytes (r : CplRecord) (phase : Bool) : List Byte :=
  leBytes 2 r.tag.toNat ++ leBytes 2 r.seq.toNat ++ leBytes 1 (r.code.toNat + bit r.chained * 16) ++ leBytes 1 r.detail.toNat ++
  leBytes 1 r.depth.toNat ++ leBytes 1 r.opcode.toNat ++ leBytes 8 r.result.toNat ++ leBytes 2 r.fetched.toNat ++ leBytes 2 0 ++
  leBytes 4 r.elapsedUs.toNat ++ leBytes 4 0 ++ leBytes 4 (bit phase * 2 ^ 31)

/-- The 32 B of a shadow ring entry (R340). -/
def shadowBytes (c : Cmd) (r : CplRecord) (epoch : BitVec 16) (phase : Bool) : List Byte :=
  leBytes 2 r.tag.toNat ++ leBytes 2 r.seq.toNat ++ leBytes 1 (3 + bit r.chained * 16) ++ leBytes 1 r.code.toNat ++
  leBytes 1 r.depth.toNat ++ leBytes 1 r.opcode.toNat ++ leBytes 8 r.result.toNat ++ leBytes 1 c.ring ++
  leBytes 1 (bit c.lostOutput + bit c.lostRead * 2) ++ leBytes 2 epoch.toNat ++ leBytes 4 r.elapsedUs.toNat ++
  leBytes 1 r.detail.toNat ++ leBytes 3 0 ++ leBytes 4 (bit phase * 2 ^ 31)

/-- SHADOW_ENTRY_WRITE (R338, R340, R343): into the shadow ring, or counted in NO_RING while SHADOW_BASE is 0 or the frame
that holds it is fenced. An entry written after ATTACH raises MSI-X vector 1. -/
def State.shadowEntry (s : State) (c : Cmd) (r : CplRecord) : State :=
  let p := s.port c.port
  let epoch := c.down.getD p.epoch
  let va := (s.part c.port).live.shadowBase.toNat * 65536 + p.shadowCount % 16384 * 32
  let noRing := s.modPort c.port fun p => { p with noRing := inc32 p.noRing }
  if va < 65536 then noRing
  else match s.pinnedPage c.port va with
  | none => noRing
  | some g =>
    if (s.frame g.place.frame).fenced then noRing
    else
      let t := (s.writeDev (g.place.add (va % 65536))
          (shadowBytes c r epoch (decide (p.shadowCount / 16384 % 2 = 0)))).modPort c.port fun p =>
        { p with shadowCount := p.shadowCount + 1, shadowUnread := p.shadowUnread + 1, shadowTail := p.shadowTail + 1 }
      if p.state = 2 then t.vector1 c.port else t

/-- A command leaves its place (R291). -/
def State.leave (s : State) (c : Cmd) : State :=
  ({ s with cmds := s.cmds.filter fun x => decide (x.id ≠ c.id) } : State).modRing c.port c.ring fun r =>
    { r with inflight := r.inflight - 1 }

/-- Host bus address of completion slot p mod N of a ring (R289, R309). -/
def Ring.cplAddr (r : Ring) (p : Nat) : Nat := r.cplBase.toNat * 4096 + p % r.size * 32

/-- COMPLETION_RECORD_WRITE (R309, R310): one posted 32 B write to the slot of CPL_POS, with the PHASE of its pass. -/
def State.postRecord (s : State) (c : Cmd) (r : CplRecord) : State :=
  let g := s.ring c.port c.ring
  let w : HostWrite := .completion c.id (g.cplAddr g.cplPos) (r.bytes (decide (g.cplPos / g.size % 2 = 0)))
  ((s.modRing c.port c.ring fun g => { g with cplPos := (g.cplPos + 1) % 65536 }).modPort c.port fun p =>
    { p with tx := p.tx ++ [w], unacked := p.unacked ++ [⟨c, r⟩] }).leave c

/-- The record goes to the completion ring, waits there for space, or becomes a shadow entry: for a command that lived
through a port down, or while the port writes nothing to host memory (R309, R336, R337). -/
def State.record (s : State) (c : Cmd) (r : CplRecord) : State :=
  let p := s.port c.port
  if c.down.isSome || decide (p.state = 0 ∨ p.state = 1) then (s.shadowEntry c r).leave c
  else
    let g := p.ring c.ring
    if g.held = [] ∧ g.hasSpace then s.postRecord c r
    else s.modRing c.port c.ring fun g => { g with held := g.held ++ [(c.id, r)] }

/-- The completion record of a command (R308); RESULT is 0 unless CODE is OK, except for ROW_SWITCH; ELAPSED_US is a measured
time (log 5). -/
def State.cplRecord (s : State) (c : Cmd) (code detail : Nat) (result : Word64) : CplRecord where
  tag := c.d.tag
  seq := c.seq
  code := BitVec.ofNat 4 code
  chained := c.chained
  detail := BitVec.ofNat 8 detail
  depth := BitVec.ofNat 8 c.depth
  opcode := BitVec.ofNat 8 c.d.opcode
  result := if code = 0 ∨ c.d.opcode = 0x0A then result else 0
  fetched := (s.ring c.port c.ring).fetchSeq
  elapsedUs := BitVec.ofNat 32 (min (Config.freeTime s.free) 0xFFFFFFFF)

/-- The handle that a FIRING_RUN names. -/
def Cmd.handle (c : Cmd) : Nat := c.op0.toNat % 2 ^ 32

/-- A command of a firing has completed: COMMANDS of its accounting record, and the wait before its first step (R359); the
times are measured (log 5). -/
def AcctRecord.command (r : AcctRecord) (t : Nat) : AcctRecord :=
  let r := { r with commands := sat64 (r.commands + 1) }
  if r.kind = 0 then { r with sum := sat64 (r.sum + t), max := Nat.max r.max (sat32 t) } else r

/-- Count a completed FIRING_RUN in its firing's record. -/
def State.countRun (s : State) (c : Cmd) : State :=
  if c.d.opcode ≠ 0x02 then s
  else match s.firing c.handle with
  | none => s
  | some f =>
    match f.acct with
    | none => s
    | some k => if f.part ≠ c.port then s else
      (s.modPart f.part fun p => { p with
        acct := Sparse.write AcctRecord.free p.acct k ((Sparse.read AcctRecord.free p.acct k).command
          (Config.freeTime s.free)) }).tick

/-- A command completes with a code: fence first, then its record, then its chain (R303, R304, R308). -/
def State.finish (s : State) (c : Cmd) (code detail : Nat) (result : Word64) : State :=
  let s := s.countRun c
  let s1 := if c.d.signals code then s.setFence c.port c.d.signalFence c.d.signalValue else s
  let s2 := (s1.record c (s1.cplRecord c code detail result)).tick
  if c.d.chains code then
    s2.modRing c.port c.ring fun g => { g with chains := g.chains ++ [(c.d.chainAddr, c.seq, c.depth + 1)] }
  else s2

/-- Complete the command with an id, if it is in flight and its record is not already held. -/
def State.complete (s : State) (c : Nat) (code detail : Nat) (result : Word64) : State :=
  match s.cmd c with
  | none => s
  | some x =>
    if (s.ring x.port x.ring).held.any (fun h => decide (h.1 = c)) then s else s.finish x code detail result

/-- Complete with OK (R6). -/
def State.completeOk (s : State) (c : Nat) (result : Word64) : State := s.complete c 0 0 result

/-- Complete with STATE_REFUSED and a DETAIL of R311; the command had no side effect (R312). -/
def State.refuse (s : State) (c detail : Nat) : State := s.complete c 1 detail 0

/-- Complete with TIMEOUT and a DETAIL of R311. -/
def State.timedOut (s : State) (c detail : Nat) : State := s.complete c 2 detail 0

/-- Complete with FAULTED (R6). -/
def State.completeFaulted (s : State) (c : Nat) : State := s.complete c 4 0 0

/-- Whether a command's record is held for completion ring space (R309). -/
def State.cplHeld (s : State) (c : Cmd) : Bool := (s.ring c.port c.ring).held.any fun h => decide (h.1 = c.id)

/-- Run `g` on a command in flight that is ready to start and has an opcode; otherwise nothing happens (log 4). -/
def State.onReady (s : State) (c op : Nat) (g : State → Cmd → State) : State :=
  match s.cmd c with
  | some x => if x.phase = .ready ∧ x.d.opcode = op ∧ !s.cplHeld x then g s x else s
  | none => s

/-- An output write to host memory on behalf of a command; while the port writes nothing, the output is lost
(R310, R336, R340). -/
def State.hostOutput (s : State) (port c addr : Nat) (bs : List Byte) : State :=
  if (s.port port).state = 2 ∨ (s.port port).state = 3 then
    match s.cmd c with
    | some x =>
      if x.down.isSome then s.modCmd c fun x => { x with lostOutput := true }
      else s.modPort port fun p => { p with tx := p.tx ++ [.output c addr bs] }
    | none => s
  else s.modCmd c fun x => { x with lostOutput := true }

end Sys2Proof.Machine
end

