-- ==== Sys2Proof/Machine/Tally.lean ====
section
/-! DEFINITION. Tallies and the cone loop: charging a request, the refill, QUOTA_POOL_RELEASE, one sample of the cone loop
(R351 to R365). -/

namespace Sys2Proof.Machine

/-- Capacity of an activity per frame and period (R351). -/
def capacity : Nat → Nat
  | 0 => 400000
  | 1 => 400000
  | 2 => 525000000
  | 3 => 32812500
  | 4 => 131250000
  | 5 => 46875000
  | 6 => 400000
  | 7 => 75000
  | 8 => 400000
  | 9 => 40000
  | _ => 0

/-- The refill of partition `n`'s unreserved remainder: ALLOC less reservations, less WIN_CARRY_ALLOC for carry (R352). -/
def State.remainderOf (s : State) (n f a : Nat) : Nat := (s.part n).allocOf f a - s.resvUnits n f a

/-- The frame's free remainder: the capacity less every partition's allocation (R352). -/
def State.freeUnits (s : State) (f a : Nat) : Nat :=
  capacity a - (List.range 4).foldl (fun k n => k + (s.part n).allocOf f a) 0

/-- Sum of the shares of the partitions that exist. -/
def State.sumShare (s : State) : Nat :=
  (List.range 4).foldl (fun k n => if s.partExists n then k + (s.part n).share else k) 0

/-- quota[n] at the start of a period (R354). -/
def State.quotaOf (s : State) (n f a : Nat) : Nat :=
  if s.partExists n then s.freeUnits f a * (s.part n).share / s.sumShare else 0

/-- The pool's units in a period: what the rounding leaves and, once released, the unused quotas (R354). -/
def State.poolOf (s : State) (f a : Nat) : Nat :=
  let t := (s.frame f).tally
  let given := (List.range 4).foldl (fun k n =>
    k + (if t.released then Sparse.read 0 t.quota (n * 16 + a) else s.quotaOf n f a)) 0
  s.freeUnits f a - given

/-- A counter can take a request: it holds the units, or the request exceeds a whole refill and the counter is full
(R353). -/
def takes (refill used units : Nat) : Bool :=
  decide (used + units ≤ refill) || (decide (refill < units) && decide (used = 0))

/-- Charge the partition's unreserved remainder, then its quota, then the pool (R352, R354). -/
def State.chargePart (s : State) (n f a u : Nat) : Option State :=
  let t := (s.frame f).tally
  let k := n * 16 + a
  let r := Sparse.read 0 t.remainder k
  let q := Sparse.read 0 t.quota k
  let p := Sparse.read 0 t.pool a
  if takes (s.remainderOf n f a) r u && decide (s.remainderOf n f a ≠ 0) then
    some (s.modTally f fun t => { t with remainder := Sparse.write 0 t.remainder k (r + u) })
  else if !t.released && takes (s.quotaOf n f a) q u && decide (s.quotaOf n f a ≠ 0) then
    some (s.modTally f fun t => { t with quota := Sparse.write 0 t.quota k (q + u) })
  else if takes (s.poolOf f a) p u && decide (s.poolOf f a ≠ 0) then
    some (s.modTally f fun t => { t with pool := Sparse.write 0 t.pool a (p + u) })
  else none

/-- Charge engine work of a firing's step: its reservation, or where it reserves no units as chargePart (R352). -/
def State.chargeFiring (s : State) (x : Firing) (f a u : Nat) : Option State :=
  if u = 0 then some s
  else
    let refill := x.img.tally f a
    if refill = 0 then s.chargePart x.part f a u
    else
      let k := x.handle * 16 + a
      let used := Sparse.read 0 (s.frame f).tally.firing k
      if takes refill used u then
        some (s.modTally f fun t => { t with firing := Sparse.write 0 t.firing k (used + u) })
      else none

/-- Charge WIN_CARRY_ALLOC of a partition on a frame (R211, R352). -/
def State.chargeWindow (s : State) (n f u : Nat) : Option State :=
  let used := Sparse.read 0 (s.frame f).tally.window n
  if takes ((s.part n).winCarryOf f) used u then
    some (s.modTally f fun t => { t with window := Sparse.write 0 t.window n (used + u) })
  else none

/-- Charge the frame's scrub counter (R352). -/
def State.chargeScrub (s : State) (f u : Nat) : Option State :=
  if takes (capacity 9) (s.frame f).tally.scrub u then
    some (s.modTally f fun t => { t with scrub := t.scrub + u })
  else none

/-- A request of partition `n` waits in this period (R353). -/
def State.holdTally (s : State) (n f a : Nat) : State :=
  s.modTally f fun t => if t.held.contains (n * 16 + a) then t else { t with held := t.held ++ [n * 16 + a] }

/-- Work that is done if its charge goes through, and otherwise waits for the next period (R353). -/
def State.ifCharged (s : State) (charged : Option State) (n f a : Nat) (g : State → State) : State :=
  match charged with
  | some t => g t
  | none => s.holdTally n f a

/-- Pay a refill off the used units: what exceeds it stays as debt (R353). -/
def payOff (refill : Nat → Nat) (m : Sparse Nat) : Sparse Nat :=
  m.foldl (fun acc p => Sparse.write 0 acc p.1 (p.2 - refill p.1)) []

/-- Refill of the counters of a firing, by key. -/
def State.firingRefill (s : State) (f k : Nat) : Nat :=
  match s.firing (k / 16) with
  | some x => x.img.tally f (k % 16)
  | none => 0

/-- Refill every counter of a frame and pay off debts (R353). -/
def State.refill (s : State) (f : Nat) : State :=
  s.modTally f fun t =>
    { firing := (payOff (s.firingRefill f) t.firing).filter fun p => (s.firing (p.1 / 16)).isSome,
      remainder := payOff (fun k => s.remainderOf (k / 16) f (k % 16)) t.remainder,
      window := payOff (fun n => (s.part n).winCarryOf f) t.window,
      quota := payOff (fun k => s.quotaOf (k / 16) f (k % 16)) t.quota,
      pool := payOff (fun a => s.poolOf f a) t.pool,
      scrub := t.scrub - capacity 9,
      released := false,
      held := [] }

/-- Each partition and activity with a request that waited raises TALLY_HOLDS by 1 (R353, R366). -/
def State.countHolds (s : State) (f : Nat) : State :=
  s.forEach (s.frame f).tally.held fun t k =>
    t.modPart (k / 16) fun p =>
      { p with holds := Sparse.write 0 p.holds (k % 16) (inc32 (Sparse.read 0 p.holds (k % 16))) }

/-- A period ends with its average core power, in units of 0.1 W: the energy above the cap joins CAP_EXCESS, and
OVERRIDDEN clears after a period at or below the cap (R365). -/
def Cone.period (c : Cone) (avgPower : Nat) : Cone :=
  if c.cap * 10 < avgPower then { c with excess := sat64 (c.excess + (avgPower - c.cap * 10) * 10) }
  else { c with overridden := false }

/-- QUOTA_POOL_RELEASE (R354): 50 µs into the period, the unused quotas go to the pool. -/
def execQuotaPoolRelease (frame : Nat) (s : State) : Outcome :=
  within (frameOk frame) (s.when s.up fun s => s.modTally frame fun t => { t with released := true })

/-! ## The cone loop (R361 to R365) -/

/-- NEED (R361). -/
def Cone.need (c : Cone) : Nat := c.target + 20

/-- One sample of the loop (R362): the supply in mV, and whether a step limited to once per 10 µs was taken. Power is in
units of 0.1 W. -/
def Cone.move (c : Cone) (rate power : Nat) : Nat × Bool :=
  if rate < c.need then (min (c.mv + 5) 620, false)
  else if c.cap * 10 < power ∧ c.need + 20 ≤ rate then if c.slow = 0 then (c.mv - 5, true) else (c.mv, false)
  else if rate < c.speed ∧ power + 20 ≤ c.cap * 10 then
    if c.slow = 0 then (min (c.mv + 5) 620, true) else (c.mv, false)
  else if max c.speed c.need + 20 < rate then if c.slow = 0 then (c.mv - 5, true) else (c.mv, false)
  else (c.mv, false)

/-- The hardware guard of an absent kiln: it raises by 5 mV when RATE is below NEED and never lowers (R405). -/
def Cone.guard (c : Cone) (rate : Nat) : Nat := if rate < c.need then min (c.mv + 5) 620 else c.mv

/-- CAP_OVERRIDDEN: power above the cap while R362 forbids any lower voltage (R365). -/
def Cone.overrides (c : Cone) (rate power : Nat) : Bool :=
  decide (c.cap * 10 < power) && (decide (rate < c.need + 20) || decide (c.mv ≤ 480))

/-- The cone after a sample. -/
def Cone.sample (c : Cone) (absent : Bool) (rate power : Nat) : Cone :=
  let m := c.move rate power
  { c with
    rate := rate % 1024,
    mv := max (if absent then c.guard rate else m.1) 480,
    slow := if !absent && m.2 then 9 else c.slow - 1,
    overridden := c.overridden || c.overrides rate power || (absent && decide (c.cap * 10 < power)) }

/-- Partitions told of CAP_OVERRIDDEN on a frame: its own, and each whose admitted firing sets TARGET there (R365). -/
def State.overrideParts (s : State) (f : Nat) : List Nat :=
  (List.range 4).filter fun n =>
    inMask (s.part n).frames f ||
      s.firings.any fun x => decide (x.part = n) && x.holds &&
        x.images.any fun i => i.names f && decide (i.floorMops = (s.frame f).cone.target)

/-- CAP_OVERRIDDEN is raised on a frame: CAP_STATUS, MSI-X vector 1 and the alert (R365, R325, R477). -/
def State.raiseOverride (s : State) (f : Nat) : State :=
  s.forEach (s.overrideParts f) fun t n =>
    (t.modPart n fun p => { p with capStatus := setBit p.capStatus f true }).vector1 n

/-- Whether RATE has reached NEED on every frame that an image names (R363). -/
def State.rateReached (s : State) (i : Image) : Bool :=
  (List.range 20).all fun f => !i.names f || decide ((s.frame f).cone.need ≤ (s.frame f).cone.rate)

/-- A FIRING_ADMIT or FIRING_RESUME whose checks have passed completes once RATE has reached NEED on each frame that the
firing names (R363); `result` holds its handle. -/
def State.admitsReached (s : State) : State :=
  s.forEach (s.cmds.filter fun c => decide ((c.d.opcode = 0x01 ∨ c.d.opcode = 0x06) ∧ c.phase = .busy ∧ c.result ≠ 0)) fun t c =>
    let result := if c.d.opcode = 0x01 then c.result else 0
    match t.firing c.result.toNat with
    | some x => if t.rateReached x.img then t.completeOk c.id result else t
    | none => t.completeOk c.id result

end Sys2Proof.Machine
end

