-- ==== Sys2Proof/Machine/Issue.lean ====
section
/-! DEFINITION. Which instruction a context has next and when it issues: the words of its thread program, the engine queues, the
tallies, the round robin of a bead's contexts (R111, R112, R115, R117, R138, R139, R192). -/

namespace Sys2Proof.Machine

/-! ## Where a context goes on (R117, R192) -/

/-- Loops whose body the context has just left: another pass, or on. -/
def settleLoops (idx : Nat) : List LoopFrame → Nat × List LoopFrame
  | [] => (idx, [])
  | l :: ls =>
    if idx ≤ l.last then (idx, l :: ls)
    else if 1 < l.left then (l.first, { l with left := l.left - 1 } :: ls)
    else settleLoops idx ls

/-- Go on at an instruction. -/
def Ctx.goto (x : Ctx) (idx : Nat) : Ctx :=
  let r := settleLoops idx x.loops
  { x with idx := r.1, loops := r.2 }

/-- Go on at the next instruction. -/
def Ctx.next (x : Ctx) : Ctx := x.goto (x.idx + 1)

/-- A context has reached the split of the pass that runs (R192, R212). -/
def Ctx.atSplit (x : Ctx) (pass : Nat) : Bool :=
  match (if pass = 0 then x.passSplit else if pass = 1 then x.tieSplit else none) with
  | some p => decide (p ≤ x.idx)
  | none => false

/-! ## The next instruction (R115, R117) -/

/-- The command of a CTRL word's OP (R117). -/
def ctrlOf (b : BeadId) (c op : Nat) (rd rs rt : BitVec 4) (imm : BitVec 42) : Option Instr :=
  match op with
  | 0x00 => some (.ctrlNop b c)
  | 0x01 => some (.ctrlAdd b c rd rs rt)
  | 0x02 => some (.addi b c rd rs imm)
  | 0x03 => some (.sub b c rd rs rt)
  | 0x04 => some (.and b c rd rs rt)
  | 0x05 => some (.or b c rd rs rt)
  | 0x06 => some (.xor b c rd rs rt)
  | 0x07 => some (.shl b c rd rs imm)
  | 0x08 => some (.shr b c rd rs imm)
  | 0x09 => some (.li b c rd imm)
  | 0x0A => some (.lih b c rd imm)
  | 0x0B => some (.lds b c rd rs imm)
  | 0x10 => some (.beq b c rs rt imm)
  | 0x11 => some (.bne b c rs rt imm)
  | 0x12 => some (.bltu b c rs rt imm)
  | 0x18 => some (.loop b c imm)
  | 0x1E => some (.rest b c)
  | 0x1F => some (.endStep b c)
  | _ => none

/-- The command of a VEC instruction's OP (R156). -/
def vecOpOf (b : BeadId) (c op : Nat) (v : VecFields) : Option Instr :=
  match op with
  | 0x01 => some (.vadd b c v)
  | 0x02 => some (.vsub b c v)
  | 0x03 => some (.vmul b c v)
  | 0x04 => some (.vfma b c v)
  | 0x05 => some (.vmax b c v)
  | 0x06 => some (.vmin b c v)
  | 0x07 => some (.vabs b c v)
  | 0x08 => some (.vneg b c v)
  | 0x09 => some (.vmov b c v)
  | 0x0A => some (.vdiv b c v)
  | 0x0B => some (.vrsqrt b c v)
  | 0x0C => some (.vexp b c v)
  | 0x0D => some (.vsigm b c v)
  | 0x0E => some (.vtanh b c v)
  | 0x0F => some (.vgelu b c v)
  | 0x10 => some (.vsel b c v)
  | 0x11 => some (.vcmpgt b c v)
  | 0x12 => some (.vcmpge b c v)
  | 0x13 => some (.vcmpeq b c v)
  | 0x18 => some (.vdq b c v)
  | 0x19 => some (.vdqr b c v)
  | 0x1A => some (.vqb b c v)
  | 0x20 => some (.vrsum b c v)
  | 0x21 => some (.vrmax b c v)
  | 0x22 => some (.vrmin b c v)
  | 0x23 => some (.vramax b c v)
  | 0x28 => some (.vidx b c v)
  | 0x30 => some (.vchk b c v)
  | 0x31 => some (.vhist b c v)
  | 0x3F => some (.vstat b c v)
  | _ => none

/-- The command that an instruction of context `c` of a bead is. -/
def instrOf (b : BeadId) (c : Nat) : BeadInstr → Option Instr
  | .ctrl op rd rs rt imm => ctrlOf b c op rd rs rt imm
  | .wait k v s => some (.wait b c k v s)
  | .signal k t s => some (.signal b c k t s)
  | .mma m => some (.mma b c m)
  | .mv m => some (.mv b c m)
  | .coil false k => some (.coilInject b c k)
  | .coil true k => some (.coilLand b c k)
  | .vec op _ v => vecOpOf b c op v

/-- The instruction at which a context stands, in the words of its thread program. -/
def State.fetch (s : State) (b : BeadId) (c : Nat) : Option BeadInstr :=
  match s.rodFiring b.rod with
  | none => none
  | some f =>
    match f.img.contents.threads.find? fun t => decide (t.bead = b ∧ t.ctx = c) with
    | none => none
    | some t => (parseProgram t.words.length t.words).bind fun p => p[((s.bead b).ctx c).idx]?

/-- The command that a context executes next. -/
def State.fetched (s : State) (b : BeadId) (c : Nat) : Option Instr := (s.fetch b c).bind (instrOf b c)

/-! ## Engine queues (R139, R142, R144, R163) -/

/-- A coil port of a bead. -/
def Bead.port (b : Bead) (p : Nat) : CoilPort := Sparse.read CoilPort.reset b.ports p

/-- A coil of an image. -/
def Image.coil (i : Image) (k : Nat) : Option CoilEntry := i.coils.find? fun c => decide (c.id = k)

/-- The place of a bead in a coil. -/
def CoilEntry.indexOf (e : CoilEntry) (b : BeadId) : Option Nat := e.beads.findIdx? fun t => decide (t.bead = b)

/-- The pass of a coil that is in progress, or a fresh one. -/
def Firing.pass (f : Firing) (k : Nat) : CoilPass := (f.coils.find? fun p => decide (p.coil = k)).getD ⟨k, [], []⟩

/-- Flits of an origin in this pass. -/
def CoilPass.flitsOf (p : CoilPass) (origin : Nat) : List (List Byte) := Sparse.read [] p.flits origin

/-- VEC entries of a bead in use: reserved, queued, or awaiting completion (R139, R163). -/
def VecEngine.entries (e : VecEngine) : Nat := (e.chains.map fun k => k.left + k.jobs.length).sum + e.done.length

/-- A context has a chain with stages still to issue (R163). -/
def VecEngine.opened (e : VecEngine) (c : Nat) : Bool := e.chains.any fun k => decide (k.ctx = c ∧ k.left ≠ 0)

/-- LANDs of a coil port that are queued, or whose completion is due (R139). -/
def CoilPort.lands (p : CoilPort) : Nat := (p.uses.filter fun u => decide (u ≠ .mma)).length + p.landed.length

/-- A bead may start a pass or segment of a coil: the head of a KIND 0 coil, or any bead of a KIND 1 ring, while no earlier one of
its own is unfinished (R142, R143). An INJECT of a KIND 0 coil by another bead never issues, and holds its context (log 106). -/
def State.injectReady (s : State) (f : Firing) (e : CoilEntry) (b : BeadId) : Bool :=
  match e.indexOf b with
  | none => false
  | some i => decide ((f.pass e.id).flitsOf i = []) && (decide (e.kind = 1) || decide (i = 0)) &&
      !(s.bead b).injects.any fun j => decide (j.coil = e.id)

/-- Pair events that a context has outstanding (R139). -/
def State.pairEvents (s : State) (b : BeadId) (c : Nat) : Nat :=
  ((List.range 20).map fun f => ((s.frame f).stream.events.filter fun e => decide (e.bead = b ∧ e.ctx = c)).length).sum

/-- The limit that an instruction of context `c` of a bead would exceed (R139): it holds its context (R112). -/
def State.queueFull (s : State) (f : Firing) (b : BeadId) (c : Nat) : BeadInstr → Bool
  | .mma _ => decide (2 ≤ (s.bead b).mmas.length)
  | .vec _ clen _ => !(s.bead b).vec.opened c && decide (4 < (s.bead b).vec.entries + (clen + 1))
  | .mv m => decide (16 ≤ (s.chan b.rod m.channel.toNat).reqs.length) ||
      (decide (m.channel ≠ 3) && decide (8 ≤ (s.bead b).mvs))
  | .coil land k =>
    match f.img.coil k.coilId.toNat with
    | none => true
    | some e => if land then decide (2 ≤ ((s.bead b).port e.port).lands) else !s.injectReady f e b
  | .signal _ _ scope => decide (scope = 4) && decide (4 ≤ s.pairEvents b c)
  | .ctrl _ _ _ _ _ => false
  | .wait _ _ _ => false

/-! ## Tally units (R138, R150) -/

/-- Matrix units of an MMA: one per 64 array-operations of an array, rounded up per array (R138). -/
def mmaUnits (m : MmaFields) : Nat := (mmaOps m + 63) / 64 * (bit (mmaArray m 0) + bit (mmaArray m 1))

/-- The activity and units that an instruction is charged when it issues: one matrix unit per 64 array-operations, one vector unit
per 64 elements, one coil unit per flit. -/
def unitsOf (f : Firing) : BeadInstr → Nat × Nat
  | .mma m => (3, mmaUnits m)
  | .vec _ _ v => (4, (v.n.toNat + 64) / 64)
  | .coil false k => (2, ((f.img.coil k.coilId.toNat).map fun e => e.passBytes / 64).getD 0)
  | _ => (2, 0)

/-- Charge engine work of the step to the firing's reservation (R352). -/
def State.chargeStep (s : State) (f : Firing) (frame a units : Nat) (g : State → State) : State :=
  s.ifCharged (s.chargeFiring f frame a units) f.part frame a g

/-! ## Issue (R112) -/

/-- A context may issue: its firing's step runs, it has not ended, waits in no WAIT and is not at the split. -/
def State.issues (s : State) (b : BeadId) (c : Nat) : Bool :=
  s.up && (match s.stepOf b with
  | some (_, st) =>
    let x := (s.bead b).ctx c
    !x.ended && x.waiting.isNone && !x.atSplit st.pass
  | none => false)

/-- A context is ready: it may issue, its next instruction names no full queue, and its units are there (R112, R353). -/
def State.ctxReady (s : State) (b : BeadId) (c : Nat) : Bool :=
  s.issues b c && (match s.stepOf b, s.fetch b c with
  | some (f, _), some i => !s.queueFull f b c i && (s.chargeFiring f b.frame (unitsOf f i).1 (unitsOf f i).2).isSome
  | _, _ => false)

/-- No other context of the bead is ready and stands before `c` in the round robin that starts after the context that issued
last. -/
def State.turn (s : State) (b : BeadId) (c : Nat) : Bool :=
  let last := (s.bead b).last
  (List.range 8).all fun d => decide ((c + 7 - last) % 8 ≤ (d + 7 - last) % 8) || !s.ctxReady b d

/-- A context issues an instruction now: it is the next of its program, names no full queue, and it is the context's turn. -/
def State.mayIssue (s : State) (b : BeadId) (c : Nat) (i : Instr) : Bool :=
  s.issues b c && decide (s.fetched b c = some i) && s.turn b c &&
    (match s.stepOf b, s.fetch b c with
    | some (f, _), some j => !s.queueFull f b c j
    | _, _ => false)

/-- A bead has issued an instruction of a context. -/
def State.took (s : State) (b : BeadId) (c : Nat) : State := s.modBead b fun y => { y with last := c, issued := y.issued + 1 }

/-- Issue an instruction of a context. -/
def State.issue (s : State) (b : BeadId) (c : Nat) (i : Instr) (g : State → Ctx → State) : State :=
  s.when (s.mayIssue b c i) fun s => g (s.took b c) ((s.bead b).ctx c)

/-- Issue an instruction that is charged to its firing's reservation (R352): without the units it is held (R353). -/
def State.issueCharged (s : State) (b : BeadId) (c : Nat) (i : Instr) (g : State → Firing → Ctx → State) : State :=
  s.when (s.mayIssue b c i) fun s =>
    match s.stepOf b, s.fetch b c with
    | some (f, _), some j => s.chargeStep f b.frame (unitsOf f j).1 (unitsOf f j).2 fun s => g (s.took b c) f ((s.bead b).ctx c)
    | _, _ => s

end Sys2Proof.Machine
end

