-- ==== Sys2Proof/Machine/Beads.lean ====
section
/-! DEFINITION. Scalar instructions of a bead: CTRL_NOP to END, WAIT and SIGNAL (R111 to R120, R255). -/

namespace Sys2Proof.Machine

/-! ## Scalar instructions -/

/-- Replace a context of a bead. -/
def State.setCtx (s : State) (b : BeadId) (c : Nat) (x : Ctx) : State := s.modBead b fun y => y.setCtx c x

/-- An instruction that only changes its context. -/
def scalar (b : BeadId) (c : Nat) (i : Instr) (g : Ctx → Ctx) (s : State) : Outcome :=
  within (ctxOk b c) (s.issue b c i fun s x => s.setCtx b c (g x))

/-- An instruction that writes a register and goes on. -/
def scalarReg (b : BeadId) (c : Nat) (i : Instr) (rd : BitVec 4) (v : Ctx → Word64) (s : State) : Outcome :=
  scalar b c i (fun x => (x.setReg rd (v x)).next) s

/-! ## CTRL (R117) -/

/-- NOP. -/
def execCtrlNop (b : BeadId) (c : Nat) (s : State) : Outcome := scalar b c (.ctrlNop b c) Ctx.next s

/-- ADD: rd = rs + rt. -/
def execCtrlAdd (b : BeadId) (c : Nat) (rd rs rt : BitVec 4) (s : State) : Outcome :=
  scalarReg b c (.ctrlAdd b c rd rs rt) rd (fun x => x.reg rs + x.reg rt) s

/-- ADDI: rd = rs + sign-extended IMM. -/
def execAddi (b : BeadId) (c : Nat) (rd rs : BitVec 4) (imm : BitVec 42) (s : State) : Outcome :=
  scalarReg b c (.addi b c rd rs imm) rd (fun x => x.reg rs + immS imm) s

/-- SUB: rd = rs − rt. -/
def execSub (b : BeadId) (c : Nat) (rd rs rt : BitVec 4) (s : State) : Outcome :=
  scalarReg b c (.sub b c rd rs rt) rd (fun x => x.reg rs - x.reg rt) s

/-- AND. -/
def execAnd (b : BeadId) (c : Nat) (rd rs rt : BitVec 4) (s : State) : Outcome :=
  scalarReg b c (.and b c rd rs rt) rd (fun x => x.reg rs &&& x.reg rt) s

/-- OR. -/
def execOr (b : BeadId) (c : Nat) (rd rs rt : BitVec 4) (s : State) : Outcome :=
  scalarReg b c (.or b c rd rs rt) rd (fun x => x.reg rs ||| x.reg rt) s

/-- XOR. -/
def execXor (b : BeadId) (c : Nat) (rd rs rt : BitVec 4) (s : State) : Outcome :=
  scalarReg b c (.xor b c rd rs rt) rd (fun x => x.reg rs ^^^ x.reg rt) s

/-- SHL: rd = rs shifted left by IMM[5:0]. -/
def execShl (b : BeadId) (c : Nat) (rd rs : BitVec 4) (imm : BitVec 42) (s : State) : Outcome :=
  scalarReg b c (.shl b c rd rs imm) rd (fun x => x.reg rs <<< immBits imm 5 0) s

/-- SHR: rd = rs shifted right, logical, by IMM[5:0]. -/
def execShr (b : BeadId) (c : Nat) (rd rs : BitVec 4) (imm : BitVec 42) (s : State) : Outcome :=
  scalarReg b c (.shr b c rd rs imm) rd (fun x => x.reg rs >>> immBits imm 5 0) s

/-- LI: rd = sign-extended IMM. -/
def execLi (b : BeadId) (c : Nat) (rd : BitVec 4) (imm : BitVec 42) (s : State) : Outcome :=
  scalarReg b c (.li b c rd imm) rd (fun _ => immS imm) s

/-- LIH: rd[63:42] = IMM[21:0]; rd[41:0] unchanged. -/
def execLih (b : BeadId) (c : Nat) (rd : BitVec 4) (imm : BitVec 42) (s : State) : Outcome :=
  scalarReg b c (.lih b c rd imm) rd (fun x => BitVec.ofNat 64 ((x.reg rd).toNat % 2 ^ 42 + immBits imm 21 0 * 2 ^ 42)) s

/-- LDS: rd = 8 B of own scratch at (rs + IMM[13:0]) & 0x3FF8. -/
def execLds (b : BeadId) (c : Nat) (rd rs : BitVec 4) (imm : BitVec 42) (s : State) : Outcome :=
  scalarReg b c (.lds b c rd rs imm) rd (fun x =>
    let a := ((x.reg rs).toNat + immBits imm 13 0) % 16384 / 8 * 8
    BitVec.ofNat 64 (s.scratchNat b a 8)) s

/-- A branch: skip IMM[11:0] instructions forward if the test holds. -/
def branch (b : BeadId) (c : Nat) (i : Instr) (imm : BitVec 42) (t : Ctx → Bool) (s : State) : Outcome :=
  scalar b c i (fun x => if t x then x.goto (x.idx + 1 + immBits imm 11 0) else x.next) s

/-- BEQ. -/
def execBeq (b : BeadId) (c : Nat) (rs rt : BitVec 4) (imm : BitVec 42) (s : State) : Outcome :=
  branch b c (.beq b c rs rt imm) imm (fun x => decide (x.reg rs = x.reg rt)) s

/-- BNE. -/
def execBne (b : BeadId) (c : Nat) (rs rt : BitVec 4) (imm : BitVec 42) (s : State) : Outcome :=
  branch b c (.bne b c rs rt imm) imm (fun x => decide (x.reg rs ≠ x.reg rt)) s

/-- BLTU: unsigned. -/
def execBltu (b : BeadId) (c : Nat) (rs rt : BitVec 4) (imm : BitVec 42) (s : State) : Outcome :=
  branch b c (.bltu b c rs rt imm) imm (fun x => decide ((x.reg rs).toNat < (x.reg rt).toNat)) s

/-- LOOP: the next IMM[11:0] instructions IMM[27:12] times; 0 skips the body. -/
def execLoop (b : BeadId) (c : Nat) (imm : BitVec 42) (s : State) : Outcome :=
  scalar b c (.loop b c imm) (fun x =>
    let n := immBits imm 11 0
    let k := immBits imm 27 12
    if k = 0 ∨ n = 0 then x.goto (x.idx + 1 + n)
    else { x with idx := x.idx + 1, loops := ⟨x.idx + 1, x.idx + n, k⟩ :: x.loops }) s

/-- REST (R117, R137): filler operations of the bead's arrays stop at once. -/
def execRest (b : BeadId) (c : Nat) (s : State) : Outcome :=
  within (ctxOk b c) (s.issue b c (.rest b c) fun s x =>
    s.modBead b fun y => ({ y with filler := [] } : Bead).setCtx c x.next)

/-- END: the context has finished the step. -/
def execEndStep (b : BeadId) (c : Nat) (s : State) : Outcome := scalar b c (.endStep b c) (fun x => { x with ended := true }) s

/-! ## EVT (R119, R255 to R258, R263, R264) -/

/-- WAIT: the context waits until COUNTER is at least VALUE; once it is, the writes of the releases that pair with it are ordered
before what the context does next (R257, R258). -/
def execWait (b : BeadId) (c : Nat) (counter : BitVec 5) (value : BitVec 16) (scope : BitVec 3) (s : State) : Outcome :=
  within (ctxOk b c) (s.issue b c (.wait b c counter value scope) fun s x =>
    let n := (s.bead b).counter counter.toNat
    let w : Waiting := ⟨counter.toNat, value.toNat, scope.toNat⟩
    s.setCtx b c ({ x.next with waiting := some w }.release counter.toNat n.toNat fun w =>
      (s.bead b).acquired b counter.toNat w.value w.scope))

/-- Every record and region that a set names has been acknowledged (R99, R263). -/
def State.acknowledged (s : State) (k : Known) : Bool :=
  (k.seqs.all fun p => (s.frame p.1).stream.unacked.all fun r => decide (p.2 ≤ r.seq)) && decide (k.regions = [])

/-- A pair event goes to the twin, on the twin stream of the target's frame. -/
def State.sendEvent (s : State) (e : PairEvent) : State :=
  { s with twin := { s.twin with sent := s.twin.sent ++ [(e.target.frame, 0x03, [e.target.toRef, e.counter])] } }

/-- A pair event (R263, R264): it goes once the twin has acknowledged every record and region ordered before the release, on
twin lanes of the target's frame that are up; the secondary's carry no writes. -/
def State.sendPair (s : State) (e : PairEvent) : State :=
  if (s.frame e.target.frame).streamUp ∧ (s.twin.role ≠ 1 ∨ s.acknowledged e.known) then s.sendEvent e
  else
    let held := (List.range 20).any fun f => s.waitsOn e.known f && decide (s.twin.mirrorOf f ≠ 0)
    let t := s.modFrame e.target.frame fun x => { x with stream := { x.stream with events := x.stream.events ++ [{ e with held := held }] } }
    if held then t.countHeld e else t

/-- SIGNAL: adds 1 to COUNTER of the bead that TARGET names, as a release of what is ordered before it; SCOPE 4 names a bead of
the twin (R119, R257, R263). A bead that the firing does not hold receives nothing (log 21). -/
def execSignal (b : BeadId) (c : Nat) (counter : BitVec 5) (target : BitVec 4) (scope : BitVec 3) (s : State) : Outcome :=
  within (ctxOk b c) (s.issue b c (.signal b c counter target scope) fun s x =>
    let t := s.setCtx b c x.next
    let d := beadOfReg (x.reg target)
    if scope = 4 then (if t.twin.paired && d.ok then t.sendPair ⟨d, counter.toNat, x.known, false, b, c⟩ else t)
    else match s.stepOf b with
    | some (f, _) => if d.ok && f.rods.contains d.rod then t.bumpRelease d counter.toNat scope.toNat b x.known else t
    | none => t)

end Sys2Proof.Machine
end

