-- ==== Sys2Proof/Machine/Matrix.lean ====
section
/-! DEFINITION. Matrix arrays and coils: MMA, MMA_COMPLETE, FILLER_EXPIRE, COIL_INJECT, COIL_LAND, COIL_FLIT_ACCEPT,
COIL_COMPLETE (R129 to R145, R186). -/

namespace Sys2Proof.Machine

/-! ## Coil ports (R142, R144) -/

/-- Replace a coil port. -/
def Bead.setPort (b : Bead) (p : Nat) (x : CoilPort) : Bead := { b with ports := Sparse.write CoilPort.reset b.ports p x }

/-- The next 8 B operand slice of the retained flits; a flit whose 8 slices are consumed leaves (R142). -/
def takeSlice : List CoilFlit → Option (List Byte × List CoilFlit)
  | [] => none
  | f :: fs =>
    some ((f.data.drop (8 * f.used)).take 8, if f.used + 1 < 8 then { f with used := f.used + 1 } :: fs else fs)

/-- The next `n` slices. -/
def takeSlices : Nat → List CoilFlit → Option (List Byte × List CoilFlit)
  | 0, fs => some ([], fs)
  | n + 1, fs =>
    match takeSlice fs with
    | none => none
    | some (a, fs') => (takeSlices n fs').map fun r => (a ++ r.1, r.2)

/-! ## One k-step (R129 to R135, R186) -/

/-- The weight elements of a buffer of slices. -/
def bufferElems (fmt : Nat) (bs : List Byte) : List Nat :=
  let w := fmtBits fmt
  (List.range (mmaElems fmt)).map fun e => leNat bs / 2 ^ (e * w) % 2 ^ w

/-- The elements of a scratch operand at k-step `k`. -/
def State.operandElems (s : State) (b : BeadId) (fmt : Nat) (reg : Word64) (transposed : Bool) (k : Nat) : List Nat :=
  let w := fmtBits fmt
  (List.range (mmaElems fmt)).map fun e => s.scratchElem b (feedBit reg transposed k e w) w

/-- Element `i` of an operand. -/
def elemAt (l : List Nat) (i : Nat) : Nat := (l[i]?).getD 0

/-- The exact products of cell [i][j] (R129): one, or two in the 4-bit formats. -/
def cellPairs (fmt i j : Nat) (a w : List Nat) : List (Nat × Nat) :=
  if mmaElems fmt = 16 then [(elemAt a (2 * i), elemAt w (2 * j)), (elemAt a (2 * i + 1), elemAt w (2 * j + 1))]
  else [(elemAt a i, elemAt w j)]

/-- The new value of a cell (R186). -/
def cellStep (fa fw : Nat) (old : Word32) (ps : List (Nat × Nat)) : Word32 :=
  match fmtOf fa with
  | .int n =>
    let sum := ps.foldl (fun x p => x + intOfCode n p.1 * intOfCode n p.2) (0 : Int)
    BitVec.ofNat 32 (intCode 32 (satInt 32 (old.toInt + sum)).1)
  | _ =>
    let prod := ps.map fun p => (decodeFmt (fmtOf fa) p.1).mul (decodeFmt (fmtOf fw) p.2)
    let sum := match prod with
      | [] => Val.zero
      | p :: rest => rest.foldl Val.add p
    ((val32 old).add sum).code32

/-- Cells of a tile that lie in a region of PACK. -/
def regionCells (pack : Nat) : List (Nat × Nat) :=
  ((List.range 8).flatMap fun i => (List.range 8).map fun j => (i, j)).filter fun p => inRegion pack p.1 p.2

/-- Set the regions of the bank that an MMA with CLEAR names to 0, and give the bank its type (R130, R133, R134). -/
def Bead.clearBank (x : Bead) (m : MmaFields) : Bead :=
  (List.range 2).foldl (fun x a =>
    if mmaArray m a then
      { x with
        acc := (regionCells m.pack.toNat).foldl (init := x.acc) fun acc p => Sparse.erase acc (accKey a m.bank.toNat p.1 p.2),
        bankInt := Sparse.write false x.bankInt (a * 2 + m.bank.toNat) (decide (m.fmt = 2 ∨ m.fmt = 4)) }
    else x) x

/-- One k-step of an MMA with the weight elements given. -/
def State.mmaStep (s : State) (b : BeadId) (job : MmaJob) (w : List Nat) : State :=
  let m := job.f
  let fmt := m.fmt.toNat
  s.modBead b fun x =>
    (List.range 2).foldl (fun x a =>
      if mmaArray m a then
        let av := s.operandElems b fmt (if a = 0 then job.a0 else job.a1) m.ta job.done
        let next := (regionCells m.pack.toNat).foldl (init := x.acc) fun acc p =>
          let key := accKey a m.bank.toNat p.1 p.2
          Sparse.write 0#32 acc key (cellStep fmt (weightFmt m) (Sparse.read 0#32 acc key) (cellPairs fmt p.1 p.2 av w))
        { x with acc := next }
      else x) x

/-- Whether a coil port's next flits are an MMA's. -/
def CoilPort.mmaTurn (p : CoilPort) : Bool :=
  match p.uses with
  | .mma :: _ => true
  | _ => false

/-- Replace the oldest MMA of a bead. -/
def Bead.setHead (x : Bead) (job : MmaJob) : Bead :=
  match x.mmas with
  | [] => x
  | _ :: rest => { x with mmas := job :: rest }

/-- Perform k-steps of a bead's oldest MMA: all that are left, or with WSRC 1 as many as the port's slices allow. -/
def State.mmaSteps (s : State) (b : BeadId) : Nat → State
  | 0 => s
  | n + 1 =>
    match (s.bead b).mmas with
    | [] => s
    | job :: _ =>
      if job.f.k.toNat < job.done then s
      else
        let next := { job with done := job.done + 1 }
        if job.f.wsrc then
          let pn := job.f.wport.toNat
          let p := (s.bead b).port pn
          if !p.mmaTurn then s
          else match takeSlices (mmaBytes job.f.fmt.toNat / 8) p.flits with
          | none => s
          | some (bs, fs) =>
            let uses := if job.f.k.toNat = job.done then p.uses.drop 1 else p.uses
            ((s.mmaStep b job (bufferElems (weightFmt job.f) bs)).modBead b fun x =>
              (x.setHead next).setPort pn { p with flits := fs, uses := uses }).mmaSteps b n
        else
          ((s.mmaStep b job (s.operandElems b (weightFmt job.f) job.w job.f.tw job.done)).modBead b fun x =>
            x.setHead next).mmaSteps b n

/-- A VEC instruction that reads the bank of an MMA, on an array that the MMA uses (R133, R167). -/
def VecJob.reads (j : VecJob) (m : MmaFields) : Bool :=
  let sel := j.regs.reg j.v.a
  decide (j.v.asel = 1 ∧ m.bank.toNat = accBank sel) && (sel.getLsbD 3 || mmaArray m (bit (sel.getLsbD 0)))

/-- Every earlier-issued read of an MMA's bank has finished (R133). -/
def Bead.readsDone (x : Bead) (job : MmaJob) : Bool :=
  !x.vec.chains.any fun k => k.jobs.any fun j => decide (j.seq < job.seq) && j.reads job.f

/-- Run the oldest MMA as far as its operands are there, once its bank is free; CLEAR comes before its first k-step. -/
def State.runMma (s : State) (b : BeadId) : State :=
  match (s.bead b).mmas with
  | [] => s
  | job :: _ =>
    s.when ((s.bead b).readsDone job) fun s => (s.when (job.f.clear && decide (job.done = 0)) fun s => s.modBead b fun x => x.clearBank job.f).mmaSteps b
      (job.f.k.toNat + 1)

/-- Copy flits that a LAND at the front of a port wants into scratch (R144). -/
def State.landFlits (s : State) (b : BeadId) (pn : Nat) : Nat → State
  | 0 => s
  | n + 1 =>
    let p := (s.bead b).port pn
    match p.uses with
    | .land off left evt en :: rest =>
      if left = 0 then
        (s.modBead b fun x => x.setPort pn { p with uses := rest, landed := p.landed ++ [⟨evt, en⟩] }).landFlits b pn n
      else match p.flits with
      | [] => s
      | f :: fs =>
        ((s.writeScratch b off f.data).modBead b fun x =>
          x.setPort pn { p with flits := fs, uses := .land (off + 64) (left - 1) evt en :: rest }).landFlits b pn n
    | _ => s

/-- Let the takers of a bead's ports have what has arrived, in issue order. -/
def State.runPorts (s : State) (b : BeadId) : State :=
  let go := fun s : State => ((s.landFlits b 0 8).landFlits b 1 8).runMma b
  go (go (go s))

/-! ## MMA (R129 to R139) -/

/-- MMA: queued behind at most one other, its operand registers read at issue; it runs when it is the oldest. -/
def execMma (b : BeadId) (c : Nat) (m : MmaFields) (s : State) : Outcome :=
  within (ctxOk b c) (s.issueCharged b c (.mma b c m) fun s _ x =>
    (s.modBead b fun y =>
      let job : MmaJob := ⟨m, x.reg m.a0, x.reg m.a1, x.reg m.w, 0, y.issued⟩
      let y := ({ y with mmas := y.mmas ++ [job], filler := [] } : Bead).setCtx c x.next
      if m.wsrc then
        let p := y.port m.wport.toNat
        y.setPort m.wport.toNat { p with uses := p.uses ++ [.mma] }
      else y).runPorts b)

/-- MMA_COMPLETE: the oldest MMA's last array-operation has written the bank (R133). With no MMA left, the arrays start
their 64 fillers (R137). -/
def execMmaComplete (b : BeadId) (s : State) : Outcome :=
  within b.ok (s.when s.up fun s =>
    match (s.bead b).mmas with
    | [] => s
    | job :: rest =>
      s.when (decide (job.f.k.toNat < job.done)) fun s =>
        ((s.modBead b fun x =>
          { x with mmas := rest, filler := if rest = [] then [(0, 64), (1, 64)] else [] }).event b job.f.evt.toNat
          job.f.evtEn).runPorts b)

/-- FILLER_EXPIRE (R137): after 64 fillers the array is idle. -/
def execFillerExpire (b : BeadId) (array : Nat) (s : State) : Outcome :=
  within (b.ok && decide (array < 2))
    (s.when s.up fun s => s.modBead b fun x => { x with filler := Sparse.write 0 x.filler array 0 })

/-! ## Coils (R140 to R144) -/

/-- Replace the pass of a coil. -/
def Firing.setPass (f : Firing) (p : CoilPass) : Firing :=
  { f with coils := (f.coils.filter fun q => decide (q.coil ≠ p.coil)) ++ [p] }

/-- Cut bytes into flits of 64 B (R142). -/
def chunks64 : Nat → List Byte → List (List Byte)
  | 0, _ => []
  | n + 1, bs => bs.take 64 :: chunks64 n (bs.drop 64)

/-- The flits of a pass or segment as its bead reads them from the source (R140, R142). -/
def State.coilSource (s : State) (f : Firing) (e : CoilEntry) (b : BeadId) : List (List Byte) :=
  chunks64 (e.passBytes / 64)
    (if e.kind = 1 then s.scratchBytes b e.source e.passBytes
     else if e.srcSpace = 1 then s.poolBytes b.rod e.source e.passBytes
     else s.pinBytesOrZero f.pins e.source e.passBytes)

/-- A coil source read that meets poisoned bursts counts, and faults the step (R241). -/
def State.coilPoison (s : State) (f : Firing) (e : CoilEntry) : State :=
  if e.kind = 1 ∨ e.srcSpace = 1 then s
  else match s.pinBad f.pins e.source e.passBytes with
  | some fr => (s.countPoison fr).faultStep f.handle
  | none => s

/-- Flit `n` of a list. -/
def flitAt (l : List (List Byte)) (n : Nat) : List Byte := (l[n]?).getD []

/-- Key of what bead `i` of a coil has accepted from an origin. -/
def passKey (origin i : Nat) : Nat := origin * 4096 + i

/-- Flits that bead `i` has accepted from an origin. -/
def CoilPass.got (p : CoilPass) (origin i : Nat) : Nat := Sparse.read 0 p.accepted (passKey origin i)

/-- A pass has ended: the last bead of the chain, or every bead of the ring, has accepted its last flit (R142, R143). -/
def coilEnded (e : CoilEntry) (p : CoilPass) : Bool :=
  let n := e.passBytes / 64
  let len := e.beads.length
  if e.kind = 1 then
    (List.range len).all fun o => (List.range len).all fun i => decide (i = o) || decide (n ≤ p.got o i)
  else decide (n ≤ p.got 0 (len - 1))

/-- The pass of a coil goes on, or leaves when it has ended. -/
def Firing.keepPass (f : Firing) (e : CoilEntry) (p : CoilPass) : Firing :=
  if coilEnded e p then { f with coils := f.coils.filter fun q => decide (q.coil ≠ e.id) } else f.setPass p

/-- COIL INJECT (R142, R143, R144): the head of a KIND 0 coil, or any bead of a KIND 1 ring, puts its flits into the pass;
it waits while an earlier pass of its own is unfinished. Coil units: one per flit (R138). -/
def execCoilInject (b : BeadId) (c : Nat) (k : CoilFields) (s : State) : Outcome :=
  within (ctxOk b c) (s.issueCharged b c (.coilInject b c k) fun s f x =>
    match f.img.coil k.coilId.toNat with
    | none => s
    | some e =>
      let p := f.pass e.id
      let i := (e.indexOf b).getD 0
      ((s.modFiring f.handle fun g =>
        g.keepPass e { p with flits := Sparse.write [] p.flits i (s.coilSource f e b) }).coilPoison f e).modBead b fun y =>
          ({ y with injects := y.injects ++ [⟨e.id, k.evt.toNat, k.evtEn⟩] } : Bead).setCtx c x.next)

/-- COIL LAND (R144): at most two per port; it copies the port's next COUNT retained flits to scratch at ADDR_REG. -/
def execCoilLand (b : BeadId) (c : Nat) (k : CoilFields) (s : State) : Outcome :=
  within (ctxOk b c) (s.issueCharged b c (.coilLand b c k) fun s f x =>
    match f.img.coil k.coilId.toNat with
    | none => s
    | some e =>
      let p := (s.bead b).port e.port
      (s.modBead b fun y =>
        (y.setPort e.port { p with uses := p.uses ++ [.land (x.reg k.addr).toNat k.count.toNat k.evt.toNat k.evtEn] }).setCtx
          c x.next).runPorts b)

/-- Whether a bead retains flit `n` of a pass (R141, R143). -/
def CoilEntry.retains (e : CoilEntry) (i n : Nat) : Bool :=
  match e.beads[i]? with
  | some t => decide (e.kind = 1) || (decide (t.first ≤ n) && decide (n < t.first + t.count))
  | none => false

/-- The bead after bead `i` does not hold it back: on a chain it has taken every flit that bead `i` has accepted; on a ring it
has all of the segments that are nearer to it than the one that bead `i` accepts, which it receives first (R142, R143; log 106).
-/
def downstreamTook (e : CoilEntry) (p : CoilPass) (origin i : Nat) : Bool :=
  let len := e.beads.length
  if e.kind = 1 then
    let next := (i + 1) % len
    decide (next = origin) || (List.range ((i + len - origin) % len)).all fun d =>
      decide (d = 0) || decide (e.passBytes / 64 ≤ p.got ((next + len - d) % len) next)
  else decide (len ≤ i + 1) || decide (p.got 0 i ≤ p.got 0 (i + 1))

/-- Whether bead `i` of a coil may accept its next flit of an origin now: the flit has reached the bead before it, every
nearer segment of a ring has arrived, the bead after it does not hold it back, and the port has room to retain it (R142, R143). -/
def coilReady (e : CoilEntry) (p : CoilPass) (port : CoilPort) (origin i : Nat) : Bool :=
  let n := p.got origin i
  let len := e.beads.length
  let back := (i + len - 1) % len
  let fed := if e.kind = 1 then decide (back = origin) || decide (n < p.got origin back) else decide (i = 0) || decide (n < p.got 0 back)
  let nearer := if e.kind = 1 then
      (List.range ((i + len - origin) % len)).all fun d =>
        decide (d = 0) || decide (e.passBytes / 64 ≤ p.got ((i + len - d) % len) i)
    else true
  decide (i < len) && decide (n < (p.flitsOf origin).length) &&
    (if e.kind = 1 then decide (i ≠ origin) else decide (origin = 0)) && fed && nearer && downstreamTook e p origin i &&
    (!e.retains i n || decide (port.flits.length < 4))

/-- COIL_FLIT_ACCEPT (R141 to R143): bead `idx` of a coil accepts its next flit of an origin, and retains it or not. -/
def execCoilFlitAccept (handle coil origin idx : Nat) (s : State) : Outcome :=
  within true (s.when s.up fun s => s.withSome (s.firing handle) fun s f =>
    match f.img.coil coil with
    | none => s
    | some e =>
      match e.beads[idx]? with
      | none => s
      | some t =>
        let p := f.pass coil
        let port := (s.bead t.bead).port e.port
        s.when (coilReady e p port origin idx) fun s =>
          let n := p.got origin idx
          let p' := { p with accepted := Sparse.write 0 p.accepted (passKey origin idx) (n + 1) }
          let s := s.modFiring handle fun g => g.keepPass e p'
          if e.retains idx n then
            (s.modBead t.bead fun y =>
              y.setPort e.port { port with flits := port.flits ++ [⟨flitAt (p.flitsOf origin) n, 0⟩] }).runPorts t.bead
          else s)

/-- A bead's oldest INJECT has sent the last flit of its pass or segment: the next bead has accepted it, or the whole pass
has ended (R144). -/
def injectSent (e : CoilEntry) (p : CoilPass) (i : Nat) : Bool :=
  decide (p.flitsOf i = []) ||
    decide (e.passBytes / 64 ≤ p.got (if e.kind = 1 then i else 0) ((i + 1) % e.beads.length))

/-- COIL_COMPLETE (R144): job 0 is the bead's oldest INJECT, jobs 1 and 2 the oldest LAND of port 0 and port 1. -/
def execCoilComplete (b : BeadId) (job : Nat) (s : State) : Outcome :=
  within (b.ok && decide (job < 3)) (s.when s.up fun s =>
    if job = 0 then
      match (s.bead b).injects, s.stepOf b with
      | j :: rest, some (f, _) =>
        match f.img.coil j.coil with
        | none => s
        | some e =>
          match e.indexOf b with
          | none => s
          | some i =>
            s.when (injectSent e (f.pass e.id) i) fun s =>
              (s.modBead b fun x => { x with injects := rest }).event b j.evt j.evtEn
      | _, _ => s
    else
      let p := (s.bead b).port (job - 1)
      match p.landed with
      | [] => s
      | d :: rest => (s.modBead b fun x => x.setPort (job - 1) { p with landed := rest }).event b d.evt d.evtEn)

end Sys2Proof.Machine
end

