-- ==== Sys2Proof/Machine/Vector.lean ====
section
/-! DEFINITION. The vector engine: streams, masks, tails, the thirty operations, chains (R147 to R172, R188, R419 to R422). -/

namespace Sys2Proof.Machine

/-! ## Records in scratch (R60, R159) -/

/-- Bytes of a block of 32 elements in a width class code (R54, R176). -/
def blockBytes (cls : Nat) : Nat := if cls = 0 then 64 else if cls = 1 then 32 else 16

/-- The element format of a width class code (R176). -/
def clsFmt (cls : Nat) : Fmt := if cls = 0 then .fp fp16F else if cls = 1 then .fp e4m3F else .fp e2m1F

/-- Element bits of a width class code. -/
def clsBits (cls : Nat) : Nat := if cls = 0 then 16 else if cls = 1 then 8 else 4

/-! ## Elements and sources (R153 to R157, R162, R184) -/

/-- An element as FP32: an integer is rounded (R157). -/
def Elem.val : Elem → Val
  | .fp w => val32 w
  | .int i => (Val.ofInt i).round32

/-- An element as an integer; an FP32 element is rounded. -/
def Elem.toInt : Elem → Int
  | .int i => i
  | .fp w => match val32 w with
    | .fin n m e => roundInt n m e
    | _ => 0

/-- An FP32 result as an element, rounded once. -/
def Elem.ofVal (v : Val) : Elem := .fp v.code32

/-- Zero. -/
def Elem.zero : Elem := .fp 0

/-- What an element read gave: the element, and ADDR if it lay outside scratch or was misaligned (R171). -/
abbrev Read := Elem × Flags

/-- An element of a scratch stream in its format; glaze bytes, row scales and bits as their codes. -/
def State.streamElem (s : State) (b : BeadId) (t : Stream') (e : Nat) : Read :=
  match t.at? e with
  | none => (match fmtOf t.fmt with
    | .fp _ => .fp 0
    | _ => .int 0, Flags.adr)
  | some a =>
    let code := s.scratchElem b a (fmtBits t.fmt)
    (match fmtOf t.fmt with
    | .fp f => Elem.ofVal (f.decode code)
    | .int w => .int (intOfCode w code)
    | .other _ => .int code, Flags.none)

/-- A VEC instruction as it executes: bead, context registers, fields, whether it computes in INT32, free value base. -/
structure VecEnv where
  bead : BeadId
  ctx : Ctx
  v : VecFields
  isInt : Bool
  base : Nat

/-- An accumulator element with its bank's type (R167). The tile has 64 cells, or 128 with BOTH; the spec gives no value beyond
them, which is free (log 98). -/
def State.accElem (s : State) (b : BeadId) (base : Nat) (sel : Word64) (e : Nat) : Elem :=
  let p := accCell sel e
  let w := if e < (if sel.getLsbD 3 then 128 else 64) then (s.bead b).cell p.1 (accBank sel) p.2.1 p.2.2
    else BitVec.ofNat 32 (leNat ((List.range 4).map fun i => Config.freeByte (base + 4 * (e % 2048) + i)))
  if (s.bead b).isInt p.1 (accBank sel) then .int w.toInt else .fp w

/-- A chaining buffer of a bead. -/
def Bead.buffer (x : Bead) (k : Nat) : List Elem := Sparse.read [] x.vec.buffers k

/-- Element `e` of an operand (R153). -/
def State.operand (s : State) (v : VecEnv) (sel : BitVec 3) (reg : BitVec 4) (e : Nat) : Read :=
  let scalar := fun w : Word32 => if v.isInt then Elem.int w.toInt else Elem.fp w
  match sel.toNat with
  | 0 => s.streamElem v.bead (streamOf (v.ctx.reg reg)) e
  | 1 => (s.accElem v.bead v.base (v.ctx.reg reg) e, Flags.none)
  | 2 => (scalar v.v.imm, Flags.none)
  | 3 => (scalar ((v.ctx.reg reg).extractLsb' 0 32), Flags.none)
  | k => ((((s.bead v.bead).buffer (k - 4))[e]?).getD Elem.zero, Flags.none)

/-- Operand A. -/
def State.opA (s : State) (v : VecEnv) (e : Nat) : Read := s.operand v v.v.asel v.v.a e
/-- Operand B. -/
def State.opB (s : State) (v : VecEnv) (e : Nat) : Read := s.operand v v.v.bsel v.v.b e
/-- Operand C. -/
def State.opC (s : State) (v : VecEnv) (e : Nat) : Read := s.operand v v.v.csel v.v.c e

/-- A glaze byte operand (R156): the code itself; of a register or immediate its low byte. -/
def State.glazeB (s : State) (v : VecEnv) (e : Nat) : Nat × Flags :=
  match v.v.bsel.toNat with
  | 0 => let r := s.streamElem v.bead (streamOf (v.ctx.reg v.v.b)) e; (r.1.toInt.toNat % 256, r.2)
  | 2 => (v.v.imm.toNat % 256, Flags.none)
  | 3 => ((v.ctx.reg v.v.b).toNat % 256, Flags.none)
  | _ => ((s.opB v e).1.toInt.toNat % 256, Flags.none)

/-- The row scale operand (R156): a stream with STRIDE 0, or bits [15:0] of a register or immediate. -/
def State.scaleC (s : State) (v : VecEnv) : Nat × Flags :=
  match v.v.csel.toNat with
  | 0 => let r := s.streamElem v.bead (streamOf (v.ctx.reg v.v.c)) 0; (r.1.toInt.toNat % 65536, r.2)
  | 2 => (v.v.imm.toNat % 65536, Flags.none)
  | 3 => ((v.ctx.reg v.v.c).toNat % 65536, Flags.none)
  | _ => ((s.opC v 0).1.toInt.toNat % 65536, Flags.none)

/-- Whether a source or destination is INT32's (R157): yes, no, or of no type of its own (a scalar, a BIT stream, a buffer
to be written). -/
def State.intKind (s : State) (b : BeadId) (x : Ctx) (sel : BitVec 3) (reg : BitVec 4) : Option Bool :=
  match sel.toNat with
  | 0 =>
    let f := (streamOf (x.reg reg)).fmt
    if f = 11 then none else some (decide (f = 2 ∨ f = 4 ∨ f = 8))
  | 1 =>
    let w := x.reg reg
    -- with BOTH the operand is INT32's where the banks of both arrays are
    let arrays := if w.getLsbD 3 then [0, 1] else [bit (w.getLsbD 0)]
    some (arrays.all fun a => (s.bead b).isInt a (accBank w))
  | 2 => none
  | 3 => none
  | k => match (s.bead b).buffer (k - 4) with
    | .int _ :: _ => some true
    | .fp _ :: _ => some false
    | [] => none

/-- Operations that may compute in INT32 (R157). -/
def intOp (op : Nat) : Bool :=
  [0x01, 0x02, 0x03, 0x05, 0x06, 0x07, 0x08, 0x09, 0x10, 0x11, 0x12, 0x13, 0x20, 0x21, 0x22, 0x23, 0x28].contains op

/-- Whether an instruction computes in INT32 (R157): every source and the destination that has a type of its own is
INT32's, and some is (log 24). -/
def State.vecInt (s : State) (b : BeadId) (x : Ctx) (op : Nat) (v : VecFields) : Bool :=
  match vecShape op with
  | none => false
  | some (a, bb, c) =>
    let ks := (if a then [s.intKind b x v.asel v.a] else []) ++ (if bb then [s.intKind b x v.bsel v.b] else []) ++
      (if c then [s.intKind b x v.csel v.c] else []) ++ (if v.dsel = 0 then [s.intKind b x 0 v.dst] else [])
    intOp op && !ks.contains (some false) && ks.contains (some true)

/-! ## Masks (R166) -/

/-- Whether mask element `e` selects the element, and ADDR for a mask element outside scratch. -/
def State.selected (s : State) (v : VecEnv) (e : Nat) : Bool × Flags :=
  if !v.v.men then (true, Flags.none)
  else
    let r := s.streamElem v.bead (streamOf (v.ctx.reg v.v.mask)) e
    (decide (r.1.toInt ≠ 0) != v.v.minv, r.2)

/-! ## Results -/

/-- Results of a stage: for each result element its value, or none where it is masked; and what was raised. -/
abbrev Results := List (Option Elem) × Flags

/-- Write one result element to a scratch stream (R157, R171, R184). -/
def State.writeElem (s : State) (b : BeadId) (t : Stream') (e : Nat) (v : Elem) : State × Flags :=
  let code : Nat × Flags := match fmtOf t.fmt, v with
    | .int w, .int i => let r := satInt w i; (intCode w r.1, if r.2 then Flags.ovf else Flags.none)
    | .fp f, v => convertFp f v.val
    | .int w, .fp x => convertInt w (val32 x)
    | .other _, v => (v.toInt.toNat, Flags.none)
  match t.at? e with
  | some a => (s.setScratchElem b a (fmtBits t.fmt) code.1, code.2)
  | none => (s, code.2.or Flags.adr)

/-- Write the results of a stage to its scratch stream: masked elements stay, or become 0 with MZERO (R166). -/
def State.writeStream (s : State) (b : BeadId) (t : Stream') (mzero : Bool) : Nat → List (Option Elem) → State × Flags
  | _, [] => (s, Flags.none)
  | e, none :: rest =>
    if mzero then
      let r := match t.at? e with
        | some a => (s.setScratchElem b a (fmtBits t.fmt) 0, Flags.none)
        | none => (s, Flags.none)
      let q := r.1.writeStream b t mzero (e + 1) rest
      (q.1, r.2.or q.2)
    else s.writeStream b t mzero (e + 1) rest
  | e, some v :: rest =>
    let r := s.writeElem b t e v
    let q := r.1.writeStream b t mzero (e + 1) rest
    (q.1, r.2.or q.2)

/-- Write the results of a stage to DSEL: a scratch stream, or a chaining buffer with each element as produced (R162). -/
def State.writeDst (s : State) (v : VecEnv) (rs : List (Option Elem)) : State × Flags :=
  if v.v.dsel = 0 then s.writeStream v.bead (streamOf (v.ctx.reg v.v.dst)) v.v.mzero 0 rs
  else
    let zero := if v.isInt then Elem.int 0 else Elem.zero
    (s.modBead v.bead fun x =>
      { x with vec := { x.vec with
          buffers := Sparse.write [] x.vec.buffers (v.v.dsel.toNat - 4) (rs.map fun r => r.getD zero) } }, Flags.none)

/-! ## The work of a stage -/

/-- What a stage does to the state, and what it raises. -/
abbrev Work := State → VecEnv → State × Flags

/-- Results of elements 0 to N − 1, each computed by `f` where it is selected. -/
def State.elements (s : State) (v : VecEnv) (f : Nat → Read) : Results :=
  (List.range (v.v.n.toNat + 1)).foldr (fun e acc =>
    let m := s.selected v e
    if m.1 then
      let r := f e
      (some r.1 :: acc.1, (m.2.or r.2).or acc.2)
    else (none :: acc.1, m.2.or acc.2)) ([], Flags.none)

/-- Compute element by element and write the destination. -/
def mapWork (f : State → VecEnv → Nat → Read) : Work := fun s env =>
  let r := s.elements env (f s env)
  let w := s.writeDst env r.1
  (w.1, r.2.or w.2)

/-! ## Element operations (R156 to R158, R184, R185) -/

/-- An FP32 result: rounded once; INVALID if it is undefined and no input was a NaN (R185). -/
def fpResult (ins : List Val) (v : Val) : Read :=
  (Elem.ofVal v, if v.isNan && !ins.any Val.isNan then Flags.inv else Flags.none)

/-- An INT32 result: saturated with OVERFLOW (R157). -/
def intResult (i : Int) : Read := let r := satInt 32 i; (.int r.1, if r.2 then Flags.ovf else Flags.none)

/-- An operation of two operands. -/
def binary (fi : Int → Int → Int) (ff : Val → Val → Val) (s : State) (v : VecEnv) (e : Nat) : Read :=
  let a := s.opA v e
  let b := s.opB v e
  let r := if v.isInt then intResult (fi a.1.toInt b.1.toInt) else fpResult [a.1.val, b.1.val] (ff a.1.val b.1.val)
  (r.1, (a.2.or b.2).or r.2)

/-- An operation of one operand. -/
def unary (fi : Int → Int) (ff : Val → Val) (s : State) (v : VecEnv) (e : Nat) : Read :=
  let a := s.opA v e
  let r := if v.isInt then intResult (fi a.1.toInt) else fpResult [a.1.val] (ff a.1.val)
  (r.1, a.2.or r.2)

/-- The larger (or smaller, by `lt`) of two values: a NaN gives way to the other; between zeros of opposite sign the
spec names neither, and a free value picks (R185; log 25). -/
def pickVal (lt : Val → Val → Bool) (n : Nat) (a b : Val) : Val :=
  if a.isNan then b
  else if b.isNan then a
  else if lt a b then b
  else if lt b a then a
  else if Config.sumPick n 2 % 2 = 0 then a else b

/-- The larger of two values. -/
def maxVal (n : Nat) (a b : Val) : Val := pickVal Val.lt n a b
/-- The smaller of two values. -/
def minVal (n : Nat) (a b : Val) : Val := pickVal (fun x y => y.lt x) n a b

/-- VADD. -/
def vaddWork : Work :=
  mapWork (binary (fun x y => x + y) Val.add)

/-- VSUB. -/
def vsubWork : Work :=
  mapWork (binary (fun x y => x - y) fun x y => x.add y.flip)

/-- VMUL. -/
def vmulWork : Work :=
  mapWork (binary (fun x y => x * y) Val.mul)

/-- VFMA: a × b + c with one rounding, in FP32 (R157). -/
def vfmaWork : Work :=
  mapWork (fun s v e =>
    let x := s.opA v e
    let y := s.opB v e
    let z := s.opC v e
    let r := fpResult [x.1.val, y.1.val, z.1.val] ((x.1.val.mul y.1.val).add z.1.val)
    (r.1, (x.2.or (y.2.or z.2)).or r.2))

/-- VMAX. -/
def vmaxWork : Work :=
  mapWork (fun s v e => binary max (maxVal (v.base + e)) s v e)

/-- VMIN. -/
def vminWork : Work :=
  mapWork (fun s v e => binary min (minVal (v.base + e)) s v e)

/-- VABS. -/
def vabsWork : Work :=
  mapWork (unary (fun x => x.natAbs) Val.abs)

/-- VNEG. -/
def vnegWork : Work :=
  mapWork (unary (fun x => -x) Val.flip)

/-- VMOV. -/
def vmovWork : Work :=
  mapWork (unary id id)

/-- An operation of R158 on one operand: value, flags and a free choice within its error bound. -/
def approx (f : Val → Nat → Val × Flags) (s : State) (v : VecEnv) (e : Nat) : Read :=
  let a := s.opA v e
  let r := f a.1.val (v.base + e)
  (Elem.ofVal r.1, a.2.or r.2)

/-- VDIV. -/
def vdivWork : Work :=
  mapWork (fun s v e =>
    let x := s.opA v e
    let y := s.opB v e
    let r := divide x.1.val y.1.val (v.base + e)
    (Elem.ofVal r.1, (x.2.or y.2).or r.2))

/-- VRSQRT. -/
def vrsqrtWork : Work :=
  mapWork (approx rsqrt)

/-- VEXP. -/
def vexpWork : Work :=
  mapWork (approx fun a n => (withinTwo (expVal a) n, Flags.none))

/-- VSIGM. -/
def vsigmWork : Work :=
  mapWork (approx fun a n => (withinTwo (sigmVal a) n, Flags.none))

/-- VTANH. -/
def vtanhWork : Work :=
  mapWork (approx fun a n => (withinTwo (tanhVal a) n, Flags.none))

/-- VGELU. -/
def vgeluWork : Work :=
  mapWork (approx fun a n => (withinTwo (geluVal a).1 n, (geluVal a).2))

/-- VSEL: c ? a : b; a C that is no BIT stream selects A where it is not 0 (log 24). -/
def vselWork : Work :=
  mapWork (fun s v e =>
    let x := s.opA v e
    let y := s.opB v e
    let z := s.opC v e
    let r := if z.1.val.isZero then y.1 else x.1
    (if v.isInt then r else Elem.ofVal r.val, x.2.or (y.2.or z.2)))

/-- A compare: 1 or 0; 0 whenever either operand is a NaN (R185). -/
def compare' (fi : Int → Int → Bool) (ff : Val → Val → Bool) (s : State) (v : VecEnv) (e : Nat) : Read :=
  let a := s.opA v e
  let b := s.opB v e
  let t := if v.isInt then fi a.1.toInt b.1.toInt else ff a.1.val b.1.val && !a.1.val.isNan && !b.1.val.isNan
  (.int (bit t), a.2.or b.2)

/-- VCMPGT. -/
def vcmpgtWork : Work :=
  mapWork (compare' (fun x y => decide (y < x)) fun x y => y.lt x)

/-- VCMPGE. -/
def vcmpgeWork : Work :=
  mapWork (compare' (fun x y => decide (y ≤ x)) fun x y => !x.lt y)

/-- VCMPEQ. -/
def vcmpeqWork : Work :=
  mapWork (compare' (fun x y => decide (x = y)) Val.eq)

/-! ## Delivered rows (R156, R159, R160) -/

/-- VDQ: a × glaze_value(b[e / 32]) × row_scale(c), by R179 and R180. -/
def vdqWork : Work :=
  mapWork (fun s v e =>
    let a := s.opA v e
    let g := s.glazeB v (e / 32)
    let r := s.scaleC v
    let k := combined g.1 r.1
    let x := if k.isZero then (Elem.zero, Flags.none) else fpResult [a.1.val] (a.1.val.mul k)
    (x.1, (a.2.or (g.2.or r.2)).or x.2))

/-- FP32 sum of a list in an order that the module does not fix (R168): two partial sums picked by a free value are added,
with one rounding, until one is left. -/
def freeSum (n : Nat) : Nat → List Val → Val
  | 0, _ => .zero
  | _, [] => .zero
  | _, [v] => v
  | k + 1, v :: w :: rest =>
    let l := v :: w :: rest
    let i := Config.sumPick n (2 * k) % l.length
    let a := (l[i]?).getD .zero
    let l' := l.eraseIdx i
    let j := Config.sumPick n (2 * k + 1) % l'.length
    let b := (l'[j]?).getD .zero
    freeSum n k ((a.add b).round32 :: l'.eraseIdx j)

/-- A sum of FP32 values: undefined without a NaN input raises INVALID. -/
def sumResult (n : Nat) (l : List Val) : Read :=
  let v := freeSum n l.length l
  (Elem.ofVal v, if v.isNan && !l.any Val.isNan then Flags.inv else Flags.none)

/-- Where record `r` of a RECORD stream begins (R154, R155). -/
def Stream'.recordAt (t : Stream') (r : Nat) : Int := (t.base : Int) + r * t.stride * 8

/-- Bytes of the delivery record of a row of `blocks` blocks in a width class code (R60). -/
def recordLen (blocks cls : Nat) : Nat := 8 + glazePad blocks + blocks * blockBytes cls

/-- A record as one element of a stream (R154, R155): the side record's word where the whole record lies inside scratch and is 8 B
aligned, none otherwise. -/
def State.recordWord (s : State) (b : BeadId) (start : Int) (blocks : Nat) : Option Nat :=
  if 0 ≤ start ∧ start.toNat + 8 ≤ 16384 ∧ start.toNat % 8 = 0 then
    let w := s.scratchNat b start.toNat 8
    if start.toNat + recordLen blocks (bits w 17 16) ≤ 16384 then some w else none
  else none

/-- What record `r` contributes to column `j` (R159): 0 for a record with NULL, or with PRESENCE under ZP; a record that is not
whole inside scratch reads 0 (R171). -/
def State.recordElem (s : State) (v : VecEnv) (rows zp : Nat) (r j : Nat) : Val × Flags :=
  let start := (streamOf (v.ctx.reg v.v.a)).recordAt r
  let blocks := rows / 32
  match s.recordWord v.bead start blocks with
  | none => (.zero, Flags.adr)
  | some w =>
    if bitAt w 21 ∨ (zp = 1 ∧ bitAt w 19) then (.zero, Flags.none)
    else
      let cls := bits w 17 16
      let g := s.scratchNat v.bead (start.toNat + 8 + j / 32) 1
      let off := 8 + glazePad blocks + j / 32 * blockBytes cls + j % 32 * clsBits cls / 8
      let e := s.scratchNat v.bead (start.toNat + off) ((clsBits cls + 7) / 8)
      let code := e / 2 ^ (j % 32 * clsBits cls % 8) % 2 ^ clsBits cls
      (dequantise (clsFmt cls) code (combined g (bits w 15 0)), Flags.none)

/-- VDQR (R159): dequantise and pool delivery records. L is IMM, POOL − 1 is AUX[7:0], ZP is AUX[8]. -/
def vdqrWork : Work :=
  mapWork (fun s v e =>
    let rows := max v.v.imm.toNat 1
    let pool := v.v.aux.toNat % 256 + 1
    let xs := (List.range pool).map fun i =>
      s.recordElem v rows (bit (v.v.aux.getLsbD 8)) (e / rows * pool + i) (e % rows)
    let r := sumResult (v.base + e) (xs.map fun x => x.1)
    (r.1, (xs.foldl (fun f x => f.or x.2) Flags.none).or r.2))

/-- One block of VQB (R160): the glaze byte and the elements, written to their streams. -/
def State.quantStage (s : State) (v : VecEnv) (k : Nat) : State × Flags :=
  let dst := streamOf (v.ctx.reg v.v.dst)
  let gt := streamOf (v.ctx.reg v.v.b)
  let es := (List.range 32).map fun i => 32 * k + i
  let sel := es.map fun e => (e, s.selected v e)
  let xs := sel.filterMap fun p => if p.2.1 then some (p.1, s.opA v p.1) else none
  let old := (s.streamElem v.bead gt k).1.toInt.toNat % 256
  let rs := s.scaleC v
  let q := quantBlock (fmtOf dst.fmt) old rs.1 (xs.map fun p => p.2.1.val)
  let fl := (sel.foldl (fun f p => f.or p.2.2) Flags.none).or (xs.foldl (fun f p => f.or p.2.2) rs.2)
  let raised : Flags := { Flags.none with overflow := q.2.2.1, invalid := q.2.2.2 }
  let put := fun (acc : State × Flags) (p : Nat × Nat) =>
    match dst.at? p.1 with
    | some a => (acc.1.setScratchElem v.bead a (fmtBits dst.fmt) p.2, acc.2)
    | none => (acc.1, acc.2.or Flags.adr)
  let w := ((xs.map fun p => p.1).zip q.2.1).foldl put (s, (fl.or raised))
  let z := if v.v.mzero then
      (sel.filter fun p => !p.2.1).foldl (fun acc p =>
        match dst.at? p.1 with
        | some a => (acc.1.setScratchElem v.bead a (fmtBits dst.fmt) 0, acc.2)
        | none => acc) w
    else w
  match gt.at? k with
  | some a => (z.1.setScratchElem v.bead a 8 q.1, z.2)
  | none => (z.1, z.2.or Flags.adr)

/-- VQB (R160): blocks of 32 elements. -/
def vqbWork : Work :=
  fun s env =>
    (List.range ((env.v.n.toNat + 1) / 32)).foldl (fun acc k =>
      let r := acc.1.quantStage env k
      (r.1, acc.2.or r.2)) (s, Flags.none)

/-! ## Reductions (R168) -/

/-- The elements of group `g`, masked ones as the identity. -/
def State.groupElems (s : State) (v : VecEnv) (size g : Nat) (ident : Elem) : List Read :=
  (List.range size).map fun i =>
    let e := g * size + i
    let m := s.selected v e
    if m.1 then let r := s.opA v e; (r.1, m.2.or r.2) else (ident, m.2)

/-- A reduction: one result for each group of AUX + 1 elements. -/
def reduceWork (identI : Int) (identF : Val) (fi : List Int → Int) (ff : Nat → List Val → Read) : Work := fun s env =>
  let size := env.v.aux.toNat + 1
  let rs := (List.range ((env.v.n.toNat + 1) / size)).map fun g =>
    let xs := s.groupElems env size g (if env.isInt then .int identI else Elem.ofVal identF)
    let fl := xs.foldl (fun f x => f.or x.2) Flags.none
    let r := if env.isInt then intResult (fi (xs.map fun x => x.1.toInt)) else ff (env.base + g) (xs.map fun x => x.1.val)
    (some r.1, fl.or r.2)
  let w := s.writeDst { env with v := { env.v with mzero := false } } (rs.map fun r => r.1)
  (w.1, (rs.foldl (fun f r => f.or r.2) Flags.none).or w.2)

/-- Fold a list from its first element. -/
def fold1 {α : Type} (d : α) (f : α → α → α) : List α → α
  | [] => d
  | x :: xs => xs.foldl f x

/-- VRSUM. -/
def vrsumWork : Work :=
  reduceWork 0 .zero (fun l => l.foldl (fun x y => x + y) 0) sumResult

/-- VRMAX. -/
def vrmaxWork : Work :=
  reduceWork (-2147483648) (.inf true) (fun l => fold1 (-2147483648) max l)
    (fun n l => (Elem.ofVal (fold1 (.inf true) (maxVal n) l), Flags.none))

/-- VRMIN. -/
def vrminWork : Work :=
  reduceWork 2147483647 (.inf false) (fun l => fold1 2147483647 min l)
    (fun n l => (Elem.ofVal (fold1 (.inf false) (minVal n) l), Flags.none))

/-- VRAMAX. -/
def vramaxWork : Work :=
  reduceWork 0 .zero (fun l => (l.map fun x => (x.natAbs : Int)).foldl max 0)
    (fun n l => (Elem.ofVal (fold1 .zero (maxVal n) (l.map Val.abs)), Flags.none))

/-! ## Indexing, checks, histograms, exceptions -/

/-- The index of VIDX: B is INT32, also where it is a scalar of a stage that computes in FP32 (R156; log 24). -/
def State.opIndex (s : State) (v : VecEnv) (e : Nat) : Int × Flags :=
  match v.v.bsel.toNat with
  | 2 => (v.v.imm.toInt, Flags.none)
  | 3 => (((v.ctx.reg v.v.b).extractLsb' 0 32).toInt, Flags.none)
  | _ => let i := s.opB v e; (i.1.toInt, i.2)

/-- VIDX: a[b[e]] if 0 ≤ b[e] < IMM, else 0 with INDEX. -/
def vidxWork : Work :=
  mapWork (fun s v e =>
    let i := s.opIndex v e
    let k := i.1
    if 0 ≤ k ∧ k < v.v.imm.toInt then
      let a := s.opA v k.toNat
      (if v.isInt then a.1 else Elem.ofVal a.1.val, i.2.or a.2)
    else (if v.isInt then .int 0 else Elem.zero, i.2.or Flags.idx))

/-- Slots of a mask, ascending. -/
def slotsOf (w : Word64) : List Nat := (List.range 64).filter fun i => w.getLsbD i

/-- RANGE_TRIP (R420): each slot marked is one trip; LAST_TRIP shows the highest slot marked. -/
def State.tripSlots (s : State) (h n entry : Nat) (shadow : Bool) (slots : List Nat) : State :=
  let t := s.modFiring h fun f => { f with step := f.step.map fun st =>
    { st with trips := st.trips ++ slots.filter fun k => !st.trips.contains k } }
  t.forEach slots fun t k => t.modPart n fun p =>
    { p with
      rangeTrips := inc32 p.rangeTrips,
      lastTrip := BitVec.ofNat 64 (h % 2 ^ 32 + entry % 4096 * 2 ^ 32 + k * 2 ^ 44 + bit shadow * 2 ^ 50) }

/-- A position that must be substituted at the next quiescent point of its frame (R12, R39, R424). -/
def State.dueRod (s : State) (r : RodId) : State :=
  s.modFrame r.frame fun x =>
    let g := x.group r.group
    let x := if g.due.contains r.pos then x else x.setGroup r.group { g with due := g.due ++ [r.pos] }
    if x.actions.contains .substitute then x else { x with actions := x.actions ++ [.substitute] }

/-- The rod of a mismatch: substituted at the next quiescent point and tested, or mapped out whatever its test shows if
it was named in a mismatch of the same handle at most 4,096 steps before (R424). -/
def State.suspectRod (s : State) (f : Firing) (r : RodId) : State :=
  let again := f.mismatches.any fun m => decide (m.1 = r) && decide (f.stepsRun ≤ m.2 + 4096)
  let t := s.dueRod r
  if again then
    t.modFrame r.frame fun x =>
      let g := x.group r.group
      match g.phys r.pos with
      | some p => x.setGroup r.group { g with failed := if g.failed.contains p then g.failed else g.failed ++ [p] }
      | none => x
  else t

/-- SHADOW_MISMATCH (R422, R424): every command of the step trips, the counter rises, and both rods are suspect. -/
def State.shadowMismatch (s : State) (f : Firing) (b : BeadId) (x1 : Word64) : State :=
  let t := s.tripSlots f.handle f.part 0 true (slotsOf x1)
  match f.img.contents.shadowRods.findIdx? fun r => decide (r = b.rod) with
  | none => t.modPart f.part fun p => { p with mismatches := inc32 p.mismatches }
  | some k =>
    let shadow := b.rod
    match f.img.contents.computeRods[64 * k + f.stepNo % 64]? with
    | none => t.modPart f.part fun p => { p with mismatches := inc32 p.mismatches }
    | some target =>
      let t := t.modPart f.part fun p =>
        { p with mismatches := inc32 p.mismatches, shadowLast := BitVec.ofNat 32 (target.toRef + shadow.toRef * 65536) }
      ((t.suspectRod f target).suspectRod f shadow).modFiring f.handle fun g =>
        { g with mismatches := g.mismatches ++ [(target, g.stepsRun), (shadow, g.stepsRun)] }

/-- An element fails a range check (R169): below the low bound, above the high bound, or not finite. -/
def outOfRange (a lo hi : Val) : Bool := !a.isFinite || a.lt lo || hi.lt a

/-- VCHK (R169, R419, R420, R422): the count of failing elements goes to element 0 of the destination; a failure marks
trips, or a shadow mismatch with AUX[1]. -/
def vchkWork : Work :=
  fun s env =>
    let r := s.elements env fun e =>
      let a := s.opA env e
      let lo := s.opB env e
      let hi := s.opC env e
      (.int (bit (outOfRange a.1.val lo.1.val hi.1.val)), a.2.or (lo.2.or hi.2))
    let n := r.1.foldl (fun k x => k + (x.getD (.int 0)).toInt) (0 : Int)
    let w := s.writeDst { env with isInt := true } [some (.int n)]
    let t := if n = 0 then w.1 else
      match w.1.stepOf env.bead with
      | none => w.1
      | some (f, _) =>
        let x1 := env.ctx.reg 1
        if env.v.aux.getLsbD 1 then w.1.shadowMismatch f env.bead x1
        else w.1.tripSlots f.handle f.part (bits env.v.aux.toNat 13 2) false
          (if env.v.aux.getLsbD 0 then slotsOf x1 else [env.v.slot.toNat])
    (t, r.2.or w.2)

/-- The bin of a value (R188). -/
def histBin (v : Val) (low : Int) : Nat :=
  match v with
  | .nan => 31
  | .inf _ => 31
  | .fin _ m e =>
    if m = 0 then 0
    else
      let k : Int := (bitLen m : Int) - 1 + e
      if k < low then 1 else if low + 28 ≤ k then 30 else 2 + (k - low).toNat

/-- Count one value in a histogram unit; a counter saturates at 0xFFFF_FFFF (R188). -/
def Bead.countHist (x : Bead) (unit bin : Nat) : Bead :=
  let k := unit * 32 + bin
  let n := Sparse.read 0 x.hist k
  if n = 0xFFFFFFFF then { x with histSat := Sparse.write false x.histSat unit true }
  else { x with hist := Sparse.write 0 x.hist k (n + 1) }

/-- LOW of a histogram unit on a frame, as the firing's table gives it (R187). -/
def Firing.histLowOf (f : Firing) (frame unit : Nat) : Int :=
  match f.img.contents.histTable.find? fun p => decide (p.1 = frame * 16 + unit) with
  | some p => histLow p.2
  | none => 0

/-- ENABLE of a histogram unit on a frame (R187). -/
def Firing.histOn (f : Firing) (frame unit : Nat) : Bool :=
  f.img.contents.histTable.any fun p => decide (p.1 = frame * 16 + unit) && histEnable p.2

/-- VHIST (R170, R187, R188): a unit counts only while its table entry has ENABLE 1. -/
def vhistWork : Work := fun s env =>
  let unit := env.v.aux.toNat % 16
  let r := s.elements env fun e => s.opA env e
  match s.stepOf env.bead with
  | none => (s, r.2)
  | some (f, _) =>
    let low := f.histLowOf env.bead.frame unit
    (s.when (f.histOn env.bead.frame unit) fun s => s.modBead env.bead fun x => r.1.foldl (fun x o =>
      match o with
      | some a => x.countHist unit (histBin a.val low)
      | none => x) x, r.2)

/-- VSTAT (R171): the exception word as 8 B at the destination's BASE, and the word becomes 0. -/
def vstatWork : Work := fun s env =>
  let t := streamOf (env.ctx.reg env.v.dst)
  let w := (s.bead env.bead).exc
  let s' := s.modBead env.bead fun x => { x with exc := 0 }
  if t.base % 8 = 0 ∧ t.base + 8 ≤ 16384 then (s'.writeScratch env.bead t.base (leBytes 8 w.toNat), Flags.none)
  else (s', Flags.adr)

/-! ## Issue and chains (R147, R150, R161 to R163) -/

/-- The work of an operation (R156). -/
def vecWork (op : Nat) : Work :=
  match op with
  | 0x01 => vaddWork
  | 0x02 => vsubWork
  | 0x03 => vmulWork
  | 0x04 => vfmaWork
  | 0x05 => vmaxWork
  | 0x06 => vminWork
  | 0x07 => vabsWork
  | 0x08 => vnegWork
  | 0x09 => vmovWork
  | 0x0A => vdivWork
  | 0x0B => vrsqrtWork
  | 0x0C => vexpWork
  | 0x0D => vsigmWork
  | 0x0E => vtanhWork
  | 0x0F => vgeluWork
  | 0x10 => vselWork
  | 0x11 => vcmpgtWork
  | 0x12 => vcmpgeWork
  | 0x13 => vcmpeqWork
  | 0x18 => vdqWork
  | 0x19 => vdqrWork
  | 0x1A => vqbWork
  | 0x20 => vrsumWork
  | 0x21 => vrmaxWork
  | 0x22 => vrminWork
  | 0x23 => vramaxWork
  | 0x28 => vidxWork
  | 0x30 => vchkWork
  | 0x31 => vhistWork
  | 0x3F => vstatWork
  | _ => fun s _ => (s, Flags.none)

/-- Every MMA on the bank that ASEL 1 reads, issued before the read, has finished (R133, R167). -/
def Bead.bankFree (x : Bead) (j : VecJob) : Bool := !x.mmas.any fun m => decide (m.seq < j.seq) && j.reads m.f

/-- One stage runs: its element work is done, what it raised joins the exception word, its completion is due. -/
def State.runStage (s : State) (b : BeadId) (j : VecJob) : State :=
  let r := vecWork j.op s ⟨b, j.regs, j.v, s.vecInt b j.regs j.op j.v, s.free⟩
  (({ r.1 with free := r.1.free + 8192 } : State).raise b r.2 j.op j.ctx).modBead b fun y =>
    { y with vec := { y.vec with done := y.vec.done ++ [⟨j.v.evt.toNat, j.v.evtEn⟩] } }

/-- The oldest chain runs once all its stages are issued and the banks that they read are free: its buffers are empty at its
start and at its end (R162), and MMAs that waited for its reads may begin (R133). -/
def State.runChain (s : State) (b : BeadId) : State :=
  match (s.bead b).vec.chains with
  | [] => s
  | k :: rest =>
    s.when (decide (k.left = 0) && k.jobs.all (s.bead b).bankFree) fun s =>
      let t := s.modBead b fun y => { y with vec := { y.vec with chains := rest, buffers := [] } }
      let t := t.forEach k.jobs fun t j => t.runStage b j
      (t.modBead b fun y => { y with vec := { y.vec with buffers := [] } }).runPorts b

/-- A stage joins the chain that its context has open, or begins one of `clen` + 1 stages, which reserves its entries (R163). -/
def VecEngine.push (e : VecEngine) (clen : Nat) (j : VecJob) : VecEngine :=
  if e.opened j.ctx then
    { e with chains := e.chains.map fun k =>
        if k.ctx = j.ctx ∧ k.left ≠ 0 then { k with left := k.left - 1, jobs := k.jobs ++ [j] } else k }
  else { e with chains := e.chains ++ [⟨j.ctx, clen, [j]⟩] }

/-- CLEN of the VEC instruction at which a context stands (R152). -/
def State.clenAt (s : State) (b : BeadId) (c : Nat) : Nat :=
  match s.fetch b c with
  | some (.vec _ clen _) => clen
  | _ => 0

/-- Issue of a VEC instruction: its units are charged (R150) and its registers read (R154); it joins its chain. Where its chain
is the only one, the chain starts as soon as it may; one that has to wait starts with VEC_CHAIN_START (log 107). -/
def vecIssue (b : BeadId) (c op : Nat) (v : VecFields) (i : Instr) (s : State) : Outcome :=
  within (ctxOk b c) (s.issueCharged b c i fun s _ x =>
    let t := s.modBead b fun y =>
      ({ y with vec := y.vec.push (s.clenAt b c) ⟨op, v, c, x, y.issued⟩ } : Bead).setCtx c x.next
    t.when (decide ((t.bead b).vec.chains.length = 1)) fun t => t.runChain b)

/-- VEC_CHAIN_START (R147, R163): the oldest chain, of `n` stages of context `c`, starts once all its stages are issued and its
banks are free. -/
def execVecChainStart (b : BeadId) (c n : Nat) (s : State) : Outcome :=
  within (ctxOk b c) (s.when (s.up && (s.bead b).vec.chains.head?.any fun k => decide (k.ctx = c ∧ k.jobs.length = n)) fun s => s.runChain b)

/-- VEC_COMPLETE (R148): the oldest VEC instruction whose destination is written gives its event and its entry back. -/
def execVecComplete (b : BeadId) (s : State) : Outcome :=
  within b.ok (s.when s.up fun s =>
    match (s.bead b).vec.done with
    | [] => s
    | d :: rest => (s.modBead b fun x => { x with vec := { x.vec with done := rest } }).event b d.evt d.evtEn)

/-! ## The instructions (R156) -/

/-- VADD. -/
def execVadd (b : BeadId) (c : Nat) (v : VecFields) (s : State) : Outcome := vecIssue b c 0x01 v (.vadd b c v) s

/-- VSUB. -/
def execVsub (b : BeadId) (c : Nat) (v : VecFields) (s : State) : Outcome := vecIssue b c 0x02 v (.vsub b c v) s

/-- VMUL. -/
def execVmul (b : BeadId) (c : Nat) (v : VecFields) (s : State) : Outcome := vecIssue b c 0x03 v (.vmul b c v) s

/-- VFMA. -/
def execVfma (b : BeadId) (c : Nat) (v : VecFields) (s : State) : Outcome := vecIssue b c 0x04 v (.vfma b c v) s

/-- VMAX. -/
def execVmax (b : BeadId) (c : Nat) (v : VecFields) (s : State) : Outcome := vecIssue b c 0x05 v (.vmax b c v) s

/-- VMIN. -/
def execVmin (b : BeadId) (c : Nat) (v : VecFields) (s : State) : Outcome := vecIssue b c 0x06 v (.vmin b c v) s

/-- VABS. -/
def execVabs (b : BeadId) (c : Nat) (v : VecFields) (s : State) : Outcome := vecIssue b c 0x07 v (.vabs b c v) s

/-- VNEG. -/
def execVneg (b : BeadId) (c : Nat) (v : VecFields) (s : State) : Outcome := vecIssue b c 0x08 v (.vneg b c v) s

/-- VMOV. -/
def execVmov (b : BeadId) (c : Nat) (v : VecFields) (s : State) : Outcome := vecIssue b c 0x09 v (.vmov b c v) s

/-- VDIV. -/
def execVdiv (b : BeadId) (c : Nat) (v : VecFields) (s : State) : Outcome := vecIssue b c 0x0A v (.vdiv b c v) s

/-- VRSQRT. -/
def execVrsqrt (b : BeadId) (c : Nat) (v : VecFields) (s : State) : Outcome := vecIssue b c 0x0B v (.vrsqrt b c v) s

/-- VEXP. -/
def execVexp (b : BeadId) (c : Nat) (v : VecFields) (s : State) : Outcome := vecIssue b c 0x0C v (.vexp b c v) s

/-- VSIGM. -/
def execVsigm (b : BeadId) (c : Nat) (v : VecFields) (s : State) : Outcome := vecIssue b c 0x0D v (.vsigm b c v) s

/-- VTANH. -/
def execVtanh (b : BeadId) (c : Nat) (v : VecFields) (s : State) : Outcome := vecIssue b c 0x0E v (.vtanh b c v) s

/-- VGELU. -/
def execVgelu (b : BeadId) (c : Nat) (v : VecFields) (s : State) : Outcome := vecIssue b c 0x0F v (.vgelu b c v) s

/-- VSEL. -/
def execVsel (b : BeadId) (c : Nat) (v : VecFields) (s : State) : Outcome := vecIssue b c 0x10 v (.vsel b c v) s

/-- VCMPGT. -/
def execVcmpgt (b : BeadId) (c : Nat) (v : VecFields) (s : State) : Outcome := vecIssue b c 0x11 v (.vcmpgt b c v) s

/-- VCMPGE. -/
def execVcmpge (b : BeadId) (c : Nat) (v : VecFields) (s : State) : Outcome := vecIssue b c 0x12 v (.vcmpge b c v) s

/-- VCMPEQ. -/
def execVcmpeq (b : BeadId) (c : Nat) (v : VecFields) (s : State) : Outcome := vecIssue b c 0x13 v (.vcmpeq b c v) s

/-- VDQ. -/
def execVdq (b : BeadId) (c : Nat) (v : VecFields) (s : State) : Outcome := vecIssue b c 0x18 v (.vdq b c v) s

/-- VDQR. -/
def execVdqr (b : BeadId) (c : Nat) (v : VecFields) (s : State) : Outcome := vecIssue b c 0x19 v (.vdqr b c v) s

/-- VQB. -/
def execVqb (b : BeadId) (c : Nat) (v : VecFields) (s : State) : Outcome := vecIssue b c 0x1A v (.vqb b c v) s

/-- VRSUM. -/
def execVrsum (b : BeadId) (c : Nat) (v : VecFields) (s : State) : Outcome := vecIssue b c 0x20 v (.vrsum b c v) s

/-- VRMAX. -/
def execVrmax (b : BeadId) (c : Nat) (v : VecFields) (s : State) : Outcome := vecIssue b c 0x21 v (.vrmax b c v) s

/-- VRMIN. -/
def execVrmin (b : BeadId) (c : Nat) (v : VecFields) (s : State) : Outcome := vecIssue b c 0x22 v (.vrmin b c v) s

/-- VRAMAX. -/
def execVramax (b : BeadId) (c : Nat) (v : VecFields) (s : State) : Outcome := vecIssue b c 0x23 v (.vramax b c v) s

/-- VIDX. -/
def execVidx (b : BeadId) (c : Nat) (v : VecFields) (s : State) : Outcome := vecIssue b c 0x28 v (.vidx b c v) s

/-- VCHK. -/
def execVchk (b : BeadId) (c : Nat) (v : VecFields) (s : State) : Outcome := vecIssue b c 0x30 v (.vchk b c v) s

/-- VHIST. -/
def execVhist (b : BeadId) (c : Nat) (v : VecFields) (s : State) : Outcome := vecIssue b c 0x31 v (.vhist b c v) s

/-- VSTAT. -/
def execVstat (b : BeadId) (c : Nat) (v : VecFields) (s : State) : Outcome := vecIssue b c 0x3F v (.vstat b c v) s

end Sys2Proof.Machine
end

