-- ==== Sys2Proof/Machine/Rows.lean ====
section
/-! DEFINITION. Tables, shards, row directories, rows in memory, slots, and the journal's append (R50 to R58, R92 to R95, R104
to R108, R483, R484). -/

namespace Sys2Proof.Machine

/-! ## Tables and shards (R50 to R53) -/

/-- A table registered on a frame. -/
def State.tableAt (s : State) (f table : Nat) : Option Table := Sparse.find (s.frame f).tables table

/-- A table of frame `f` as firing `h` uses it: until its running step ends, as it was before a COMMIT that has reached the frame
meanwhile (R39). -/
def State.tableFor (s : State) (h f table : Nat) : Option Table :=
  match (s.firing h).bind fun x => Sparse.find x.oldTables f with
  | some old => Sparse.find old table
  | none => s.tableAt f table

/-- The first frame on which a table is registered. -/
def State.tableFrame (s : State) (table : Nat) : Option Nat :=
  (List.range 20).find? fun f => (s.tableAt f table).isSome

/-- A table registered on the module. -/
def State.anyTable (s : State) (table : Nat) : Option Table :=
  match s.tableFrame table with
  | some f => s.tableAt f table
  | none => none

/-- Blocks of 32 elements in a row (R55). -/
def TableDesc.blocks (d : TableDesc) : Nat := d.rowElements / 32

/-- Shard and local row number of an index below ROWS (R51). -/
def TableDesc.shardOf (d : TableDesc) (i : Nat) : Nat × Nat :=
  if d.shardMode = 0 then (i % max d.shardCount 1, i / max d.shardCount 1)
  else (i / 2 ^ d.blockShift, i % 2 ^ d.blockShift)

/-- Whether ALLOWED permits a class in a tier (R50). -/
def TableDesc.permits (d : TableDesc) (t : Tier) (cls : Nat) : Bool := decide (cls < 3) && d.allowed.getLsbD (t.num * 3 + cls)

/-- A shard of a table. -/
def Table.shard (t : Table) (k : Nat) : Option ShardEntry := t.shards[k]?

/-! ## Rows (R55) -/

/-- Blocks per burst. -/
def perBurst (cls : Nat) : Nat := if cls = 0 then 1 else if cls = 1 then 2 else 4

/-- Bursts of a row. -/
def rowBursts (cls blocks : Nat) : Nat := (blocks + perBurst cls - 1) / perBurst cls

/-- Where block `k` of the row whose first burst is `u` lies: its burst and its place in it. -/
def blockPlace (u : Unit64) (cls k : Nat) : Unit64 × Nat := ({ u with num := u.num + k / perBurst cls }, k % perBurst cls)

/-- Bytes of block `k`. -/
def State.blockBytesAt (s : State) (u : Unit64) (cls k : Nat) : List Byte :=
  let p := blockPlace u cls k
  s.devBytes (p.1.place.add (p.2 * blockBytes cls)) (blockBytes cls)

/-- The glaze byte of block `k`. -/
def State.glazeAt (s : State) (u : Unit64) (cls k : Nat) : Byte :=
  let p := blockPlace u cls k
  ((s.sideBytes p.1)[p.2]?).getD 0

/-- The bursts of a row. -/
def rowUnits (u : Unit64) (cls blocks : Nat) : List Unit64 := (List.range (rowBursts cls blocks)).map fun i => { u with num := u.num + i }

/-- Some burst of a row is poisoned or restoring (R241). -/
def State.rowBad (s : State) (u : Unit64) (cls blocks : Nat) : Bool := (rowUnits u cls blocks).any s.badBurst

/-- A row as stored: its glaze bytes and blocks. -/
def State.readRow (s : State) (u : Unit64) (cls blocks scale : Nat) : RowImage where
  cls := if cls = 0 then .c16 else if cls = 1 then .c8 else .c4
  scale := BitVec.ofNat 16 scale
  glaze := (List.range blocks).map fun k => s.glazeAt u cls k
  blocks := (List.range blocks).flatMap fun k => s.blockBytesAt u cls k

/-- The code of a width class (R176). -/
def clsNum : WidthClass → Nat
  | .c16 => 0
  | .c8 => 1
  | .c4 => 2

/-- Bytes cut or padded with zeros to a length. -/
def padTo (n : Nat) (bs : List Byte) : List Byte := (bs ++ List.replicate (n - bs.length) 0).take n

/-- Write a row into a slot, burst by burst, each with its glaze bytes; unused bytes hold 0 (R55, R93). -/
def State.writeRow (s : State) (u : Unit64) (img : RowImage) : State :=
  let cls := clsNum img.cls
  let n := perBurst cls
  let size := blockBytes cls
  s.forEach (List.range (rowBursts cls img.glaze.length)) fun t i =>
    t.writeBurst { u with num := u.num + i } (padTo 64 ((img.blocks.drop (i * n * size)).take (n * size)))
      (padTo 4 ((img.glaze.drop (i * n)).take n))

/-! ## Directory entries (R56, R57) -/

/-- A row directory entry. -/
structure DirEntry where
  present : Bool
  tier : Tier
  cls : Nat
  slot : Nat
  scale : Nat
deriving DecidableEq, Repr

/-- The entry that 8 bytes spell. -/
def DirEntry.ofNat (w : Nat) : DirEntry := ⟨bitAt w 0, Tier.ofNum (bits w 1 1), bits w 3 2, bits w 39 8, bits w 55 40⟩

/-- An entry as 8 bytes. -/
def DirEntry.toNat (e : DirEntry) : Nat :=
  bit e.present + e.tier.num * 2 + e.cls % 4 * 4 + e.slot % 2 ^ 32 * 2 ^ 8 + e.scale % 65536 * 2 ^ 40

/-- The first burst of an entry's slot, on the shard's frame. -/
def DirEntry.unit (e : DirEntry) (frame : Nat) : Unit64 := ⟨frame, e.tier, e.slot⟩

/-- A row resolved to its shard: the table, the shard's entry, and where its directory entry and counter lie. -/
structure RowAt where
  table : Table
  shard : ShardEntry
  local' : Nat
  entry : Place
  counter : Place

/-- The row of a registered table, through the shard map and the table's pinned pages (R51, R52, R272). -/
def Table.rowAt (t : Table) (row : Nat) : Option RowAt :=
  if t.desc.rows ≤ row then none
  else
    let k := t.desc.shardOf row
    match t.shard k.1 with
    | none => none
    | some sh =>
      match pinPlace t.pages (sh.directory + 8 * k.2), pinPlace t.pages (sh.counters + 2 * k.2) with
      | some e, some c => some ⟨t, sh, k.2, e, c⟩
      | _, _ => none

/-- The row of a table as frame `f` registers it. -/
def State.rowAt (s : State) (f table row : Nat) : Option RowAt :=
  match s.tableAt f table with
  | some t => t.rowAt row
  | none => none

/-- The table that a carry operation of a source names, as registered on frame `f`: a step's as its firing uses it (R39). -/
def State.srcTable (s : State) (src : CarrySource) (f table : Nat) : Option Table :=
  match src with
  | .step _ h => s.tableFor h f table
  | _ => s.tableAt f table

/-- A registered table that an operation of a source names, from the first frame that has it. -/
def State.srcAny (s : State) (src : CarrySource) (table : Nat) : Option Table :=
  (List.range 20).findSome? fun f => s.srcTable src f table

/-- The row that an operation of a source names on frame `f`. -/
def State.srcRow (s : State) (src : CarrySource) (f table row : Nat) : Option RowAt :=
  (s.srcTable src f table).bind fun t => t.rowAt row

/-- The row of a table as firing `h` uses the tables of frame `f` (R39). -/
def State.rowFor (s : State) (h f table row : Nat) : Option RowAt :=
  match s.tableFor h f table with
  | some t => t.rowAt row
  | none => none

/-- A row's directory entry as it reads now. -/
def State.entryAt (s : State) (r : RowAt) : DirEntry := DirEntry.ofNat (s.devNat r.entry 8)

/-- The burst of a row's directory entry is poisoned or restoring (R242). -/
def State.entryBad (s : State) (r : RowAt) : Bool := s.badRead r.entry 8

/-- A present entry that CLASS 3 or ALLOWED makes invalid (R483). -/
def TableDesc.badEntry (d : TableDesc) (e : DirEntry) : Bool := e.present && !d.permits e.tier e.cls

/-- Write a directory entry as one 8 B write (R75). -/
def State.writeEntry (s : State) (r : RowAt) (e : DirEntry) : State := s.writeDev r.entry (leBytes 8 e.toNat)

/-- Add to a row's popularity counter, saturating at 0xFFFF (R58). -/
def State.bumpCounter (s : State) (r : RowAt) : State :=
  s.writeDev r.counter (leBytes 2 (min (s.devNat r.counter 2 + 1) 0xFFFF))

/-! ## Slots (R95, R484) -/

/-- Two slots share a burst. -/
def overlaps (t : Tier) (a n : Nat) (t' : Tier) (b m : Nat) : Bool :=
  decide (t = t') && decide (a < b + m) && decide (b < a + n)

/-- The slot overlaps one that a directory entry in force names on the frame, but for row `skip`. -/
def State.slotNamed (s : State) (f : Nat) (t : Tier) (slot n : Nat) (skip : Option RowKey) : Bool :=
  (s.frame f).tables.any fun tb =>
    (List.range tb.2.desc.rows).any fun row =>
      decide (skip ≠ some ⟨tb.1, row⟩) &&
        (match tb.2.rowAt row with
        | some r =>
          let e := s.entryAt r
          decide (r.shard.frame = f) && e.present && overlaps t slot n e.tier e.slot (rowBursts e.cls tb.2.desc.blocks)
        | none => false)

/-- The slot overlaps a reserved or an old slot of the frame; `key` may hold a reservation of its own (R95, R484). -/
def State.slotHeld (s : State) (f : Nat) (t : Tier) (slot n : Nat) (key : Option RowKey) : Bool :=
  (s.slotsReserved.any fun u => decide (u.frame = f) && decide (some u.key ≠ key) && overlaps t slot n u.tier u.slot u.bursts) ||
    s.slotsOld.any fun u => decide (u.frame = f) && overlaps t slot n u.tier u.slot u.bursts

/-- A slot lies within one page frame, so within the memory of one controller (R80, R228, R230). -/
def inOneFrame (slot n : Nat) : Bool := decide (slot / 1024 = (slot + n - 1) / 1024)

/-- Every burst of a slot lies in a mirrored range. -/
def State.slotMirrored (s : State) (u : Unit64) (n : Nat) : Bool :=
  (List.range n).all fun i => s.burstMirrored { u with num := u.num + i }

/-- The slot lies in the tier and is free to be written for a row. -/
def State.slotFree (s : State) (f : Nat) (t : Tier) (slot n : Nat) (key : RowKey) : Bool :=
  decide ((slot + n) * 64 ≤ t.bytes) && inOneFrame slot n && !s.slotNamed f t slot n none && !s.slotHeld f t slot n (some key)

/-- Handles whose steps run now (R93, R95). -/
def State.runningSteps (s : State) : List Nat := (s.firings.filter fun f => f.step.isSome).map fun f => f.handle

/-- An old slot may be written again: the steps running at the switch have ended and the twin has written the entry (R95; log
101). -/
def State.slotDone (s : State) (u : SlotUse) : Bool := decide (u.steps = []) && !u.entry.any s.copyPending

/-- A slot that a switch of a row's entry released: not written again before the steps running now have ended (R95). -/
def State.oldSlot (s : State) (f : Nat) (key : RowKey) (r : RowAt) (e : DirEntry) : State :=
  let u : SlotUse := ⟨key, f, e.tier, e.slot, rowBursts e.cls r.table.desc.blocks, s.runningSteps, some r.entry.burst⟩
  if e.present ∧ !s.slotDone u then { s with slotsOld := s.slotsOld ++ [u] } else s

/-! ## Journal (R104 to R108, R462) -/

/-- Bytes of the staging ring in force. -/
def Journal.bytes (j : Journal) : Nat := j.sizeMib * 2 ^ 20

/-- Every shard of the frame's tables (R108). -/
def Frame.shardsOf (x : Frame) (f : Nat) : List (Nat × Nat) :=
  x.tables.flatMap fun t =>
    ((List.range t.2.shards.length).filter fun k =>
      match t.2.shards[k]? with
      | some e => decide (e.frame = f)
      | none => false).map fun k => (t.1, k)

/-- Bytes of CKPT_TRIGGER in force (R463). -/
def State.ckptTrigger (s : State) : Nat := s.mbLive.ckptGib * 2 ^ 30

/-- CHECKPOINT_START (R108): the frame's journal bytes since its last complete checkpoint have reached CKPT_TRIGGER; at
twice that CKPT_LATE is raised. -/
def State.checkpointStart (s : State) (f : Nat) : State :=
  let j := (s.frame f).journal
  let t := if s.ckptTrigger ≤ j.sinceCkpt ∧ j.ckptLeft = none then
      s.modFrame f fun x => { x with journal := { x.journal with ckptLeft := some (x.shardsOf f) } }
    else s
  if 2 * s.ckptTrigger ≤ j.sinceCkpt then { t with ckptLate := setBit t.ckptLate f true } else t

/-- A record of a change that writes memory. -/
def changesMemory (cold : Bool) (b : JournalBody) : Bool :=
  match b with
  | .carry _ => !cold
  | .rowWrite _ _ => true
  | .switch _ _ => true
  | .relocate _ _ => true
  | .checkpoint _ _ => false
  | .epochStart _ _ _ => false
  | .gap _ _ => false

/-- MSEQ of a change: SEQ of the last stream record that it produced since the frame's next SEQ was `seq0`, or 0 (R105). -/
def State.mseq (s : State) (seq0 f : Nat) (cold : Bool) (b : JournalBody) : Nat :=
  if changesMemory cold b ∧ seq0 < (s.frame f).stream.nextSeq then (s.frame f).stream.nextSeq - 1 else 0

/-- The next stream SEQ of a frame. -/
def State.seqOf (s : State) (f : Nat) : Nat := (s.frame f).stream.nextSeq

/-- Bytes are written to a bay's cartridge: at 90 % of the rated life LIFE_WARN is set, at the rated life the bay becomes
READ_ONLY; flash takes the count at every 64 GiB (R434). -/
def BayState.wrote (b : BayState) (n : Nat) : BayState :=
  let new := b.written + n
  let b := { b with saved := if b.written / 2 ^ 36 < new / 2 ^ 36 then new else b.saved, written := new }
  let b := { b with lifeWarn := b.lifeWarn || decide (ratedLife * 9 ≤ b.life * 10) }
  if ratedLife ≤ b.life ∧ (b.state = 3 ∨ b.state = 4) then { b with state := 5 } else b

/-- A bay changes; a change of its state raises MSI-X vector 1 on every port (R325, R433). -/
def State.changeBay (s : State) (k : Bay) (x : BayState) : State :=
  let t := s.setBay k x
  if (s.bay k).state = x.state then t else t.vector1All

/-- The next record of a frame. -/
def State.nextRecord (s : State) (seq0 f table row : Nat) (cold : Bool) (body : JournalBody) : JournalRec :=
  ⟨f, cold, table, (s.frame f).journal.nextJseq, s.mseq seq0 f cold body, row, body⟩

/-- Put a record into the staging ring of a frame; the twin's saggars get it too (R104). -/
def State.stageRecord (s : State) (seq0 f table row : Nat) (cold : Bool) (body : JournalBody) : State :=
  (s.modFrame f fun x =>
    let j := x.journal
    { x with journal := { j with
        nextJseq := j.nextJseq + 1,
        ring := j.ring ++ [s.nextRecord seq0 f table row cold body],
        ringBytes := j.ringBytes + journalLength body,
        sinceCkpt := j.sinceCkpt + journalLength body } }).copyToTwin f (.journal (s.nextRecord seq0 f table row cold body))

/-- Whether `n` more bytes fit into the staging ring, and some bay takes records. -/
def State.stageFits (s : State) (f n : Nat) : Bool :=
  !s.journalOff && decide ((s.frame f).journal.ringBytes + n ≤ (s.frame f).journal.bytes)

/-- The GAP record of the JSEQs lost, once there is space for it (R107); the shards of the frame await a CHECKPOINT. -/
def State.stageGap (s : State) (f : Nat) : State :=
  match (s.frame f).journal.lost with
  | none => s
  | some l =>
    if s.stageFits f (journalLength (.gap l.1 l.2)) then
      let t := (s.stageRecord 0 f 0xFFFF 0xFFFFFFFF false (.gap l.1 l.2)).modFrame f fun x =>
        { x with journal := { x.journal with lost := none, gapShards := x.shardsOf f } }
      { t with gapFrames := setBit t.gapFrames f true }
    else s

/-- JOURNAL_APPEND (R104, R107): the primary stages a record, with the next JSEQ of its frame; `seq0` is the frame's next stream SEQ
before the change. A record that does not fit, or comes while neither bay can take records, is lost (log 29). -/
def State.journalAppend (s : State) (seq0 f table row : Nat) (cold : Bool) (body : JournalBody) : State :=
  if s.twin.role ≠ 1 then s
  else
    let s := s.stageGap f
    let j := (s.frame f).journal
    if s.stageFits f (journalLength body) ∧ j.lost = none then (s.stageRecord seq0 f table row cold body).checkpointStart f
    else
      s.modFrame f fun x => { x with journal := { x.journal with
        nextJseq := j.nextJseq + 1,
        lost := some (match j.lost with
          | some l => (l.1, j.nextJseq)
          | none => (j.nextJseq, j.nextJseq)) } }

/-! ## Row commands that wait (R93, R95) -/

/-- A ROW_WRITE or ROW_SWITCH completes once its bursts have gone to the twin, or are acknowledged by it, and the steps that it
waits for have ended (R93; log 101). -/
def State.finishRow (s : State) (c : Nat) : State :=
  match s.cmd c with
  | some x =>
    if x.phase = .busy ∧ ((x.d.opcode = 0x09 ∧ !x.copied.any s.sendPending) ∨
        (x.d.opcode = 0x0A ∧ x.steps0 = [] ∧ !x.copied.any s.copyPending)) then
      s.completeOk c x.result
    else s
  | none => s

/-- Every row command that waits looks again, and released slots too (R93, R95). -/
def State.finishRows (s : State) : State :=
  let t := s.forEach (s.cmds.filter fun x => decide (x.d.opcode = 0x09 ∨ x.d.opcode = 0x0A)) fun t x => t.finishRow x.id
  { t with slotsOld := t.slotsOld.filter fun u => !t.slotDone u }

end Sys2Proof.Machine
end

