-- ==== Sys2Proof/Machine/MoverOps.lean ====
section
/-! DEFINITION. What movers do: where an access lies, the faults it meets, the copy itself, host and window transfers
(R124 to R127, R241, R272 to R280, R329, R332, R374 to R379). -/

namespace Sys2Proof.Machine

/-! ## Places -/

/-- A place `n` bytes further. -/
def shiftPlace (n : Nat) : MvPlace → MvPlace
  | .scratch b off => .scratch b (off + n)
  | .pool r off => .pool r (off + n)
  | .device va => .device (va + n)
  | .command c off => .command c (off + n)
  | .nothing => .nothing

/-- Where one piece of an access lies. -/
inductive Reach where
  | scratch (b : BeadId) (off : Nat)
  | pool (r : RodId) (off : Nat)
  | dram (p : Place) (busy : Bool)
  | host (addr : Nat)
  | remote (module window off : Nat)
  | bad (kind : Nat)
  | nothing
deriving DecidableEq, Repr

/-- Who accesses: the rod's mover channel 3, which walks the partition's tables outside the pin table, or channels 0 to 2,
which use the pin table alone (R272, R273; log 31). -/
structure Access where
  frame : Nat
  part : Nat
  pins : List PinPage
  walks : Bool

/-- A leaf as an access finds it (R270, R275). -/
def leafReach (w va : Nat) (write : Bool) : Reach :=
  let l := Leaf.ofWord w
  if write ∧ !l.write then .bad 0x02
  else if l.loc ≤ 1 then .dram (l.place.add (va % 65536)) l.busy
  else if l.loc = 2 then .host (l.base + va % 65536)
  else
    let m := l.remote
    .remote m.1 m.2.1 (m.2.2 + va % 65536)

/-- Where a device virtual address lies for an access. -/
def State.reach (s : State) (a : Access) (va : Nat) (write : Bool) : Reach :=
  match pinFind a.pins va with
  | some g => if a.walks && write && !g.write then .bad 0x02 else .dram (g.place.add (va % 65536)) false
  | none =>
    if !a.walks then .nothing
    else match s.walkAt a.frame a.part va with
    | .bad k => .bad k
    | .leaf w => leafReach w va write

/-- The pieces of a place: where each lies, its address in device memory, its length. -/
def State.reaches (s : State) (a : Access) (p : MvPlace) (len : Nat) (write : Bool) : List (Reach × Nat × Nat) :=
  match p with
  | .scratch b off => [(.scratch b off, 0, len)]
  | .pool r off => [(.pool r off, 0, len)]
  | .nothing => []
  | .command _ _ => []
  | .device va => (pieces va len).map fun pc => (s.reach a pc.1 write, pc.1, pc.2)

/-- The first fault among pieces: kind and address. -/
def badPiece (ps : List (Reach × Nat × Nat)) : Option (Nat × Nat) :=
  ps.findSome? fun q => match q.1 with
    | .bad k => some (k, q.2.1)
    | _ => none

/-- The first fault that a copy meets, over every page of it: kind, access bits and address (R275, R282). -/
def State.copyFault (s : State) (a : Access) (c : MvCopy) : Option (Nat × Nat × Nat) :=
  match badPiece (s.reaches a c.src c.len false) with
  | some q => some (q.1, 1, q.2)
  | none => (badPiece (s.reaches a c.dst c.len true)).map fun q => (q.1, 2, q.2)

/-- Keep the translations that a copy has walked (R273). -/
def State.fillCopy (s : State) (a : Access) (c : MvCopy) : State :=
  let vas := fun p : MvPlace => match p with
    | .device va => (pieces va c.len).map fun pc => pc.1
    | _ => []
  if a.walks then
    s.forEach (vas c.src ++ vas c.dst) fun t va =>
      if (pinFind a.pins va).isSome then t else t.fillTlb a.frame a.part va
  else s

/-! ## Shared window pages (R329, R331) -/

/-- The shared window page of partition `n`'s port that holds an address. -/
def State.sharedPage (s : State) (n va : Nat) : Option Nat :=
  let x := s.port n
  let base := x.winBase.toNat * 2 ^ 28
  if base ≤ va ∧ va < base + 2 ^ 28 ∧ x.shared.contains ((va - base) / 65536) then some ((va - base) / 65536) else none

/-- Shared pages that pieces touch in device memory. -/
def State.sharedOf (s : State) (n : Nat) (ps : List (Reach × Nat × Nat)) : List Nat :=
  ps.filterMap fun q => match q.1 with
    | .dram _ _ => s.sharedPage n q.2.1
    | _ => none

/-! ## Host memory (R126, R127, R332, R336) -/

/-- Host bytes of pieces. -/
def hostLength (ps : List (Reach × Nat × Nat)) : Nat :=
  ps.foldl (fun n q => match q.1 with
    | .host _ => n + q.2.2
    | _ => n) 0

/-- The port sends and receives (R336). -/
def State.hostReachable (s : State) (p : Nat) : Bool := decide ((s.port p).state = 2 ∨ (s.port p).state = 3)

/-- Take `n` bytes of what host memory answers; bytes that no operand gives are free values (log 12). -/
def takeHost (free n : Nat) (data : List Byte) : List Byte :=
  (List.range n).map fun i => (data[i]?).getD (Config.freeByte (free + i))

/-! ## Windows of other modules (R374 to R379) -/

/-- The whole length of the carry operation that bytes spell, if they spell one (R82). -/
def opLength (bs : List Byte) : Option Nat :=
  let op := fieldAt bs 0 1
  let fmt := fieldAt bs 1 1
  if (op = 1 ∨ op = 2) ∧ fmt ≤ 3 then
    let size := if fmt = 0 then 4 else if fmt = 1 then 2 else 1
    some (32 + (fieldAt bs 0xA 2 * 32 * size + 31) / 32 * 32)
  else none

/-- The parts of a transfer of `n` bytes at an offset of a window: cut at 4 KiB boundaries (R377). -/
def txnParts (off n : Nat) : List (Nat × Nat) :=
  if n = 0 then []
  else (List.range ((off + n - 1) / 4096 + 1 - off / 4096)).map fun i =>
    let lo := max off ((off / 4096 + i) * 4096)
    (lo - off, min (off + n) ((off / 4096 + i + 1) * 4096) - lo)

/-- The parts of a write: one whole carry operation at the start of a window stays whole (R377; log 30). -/
def writeParts (off : Nat) (bs : List Byte) : List (Nat × Nat) :=
  if off = 0 ∧ opLength bs = some bs.length then [(0, bs.length)] else txnParts off bs.length

/-- A transaction gets another answer than OK, or none: it moves nothing, and its command's read fails or its step is faulted
(R280, R378, R481). -/
def State.badAnswer (s : State) (h : Nat) (into : Option MvCopy) : State :=
  match into.map MvCopy.dst with
  | some (.command c _) => s.modCmd c fun x => { x with remoteBad := true }
  | _ => s.faultStep h

/-- A transaction that is sent nowhere ends at once as though answered NOROUTE (R374, R378). -/
def State.noRoute (s : State) (h : Nat) (into : Option MvCopy) : State :=
  ({ s with fabric := { s.fabric with noRoute := inc32 s.fabric.noRoute } } : State).badAnswer h into

/-- Send one request of a mover; its flits are charged to the link tally by the caller (R377 to R379). -/
def State.request (s : State) (r : RodId) (h part va kind dst window off len : Nat) (data : List Byte) (into : Option MvCopy) :
    State :=
  let d := BitVec.ofNat 16 dst
  match (if s.fabric.idSet then s.routeLink d 0 else none) with
  | none => s.noRoute h into
  | some k =>
    let tid := s.fabric.nextTid
    let t := s.sendTxn k kind ⟨0, d, s.fabric.moduleId, window, off, len, tid, true, data⟩
    { t with fabric := { t.fabric with nextTid := tid + 1, outstanding := t.fabric.outstanding ++ [⟨tid, h, r, into, part, va / 65536⟩] } }

/-- A transfer to another module that used a translation of a range has not finished (R274). -/
def State.rangeInFlight (s : State) (n va len : Nat) : Bool :=
  s.fabric.outstanding.any fun o => decide (o.part = n) && decide (va / 65536 ≤ o.page) && decide (o.page * 65536 < va + len)

/-- Each TLB_INVALIDATE that has dropped its range completes once no such transfer is left (R274). -/
def State.settleTlb (s : State) : State :=
  s.forEach (s.cmds.filter fun x => decide (x.d.opcode = 0x12 ∧ x.phase = .busy)) fun t x =>
    if t.rangeInFlight x.port x.op0.toNat x.op1.toNat then t else t.completeOk x.id 0

/-- Flits that the remote pieces of a copy send (R379). -/
def linkUnits (read : Bool) (ps : List (Reach × Nat × Nat)) : Nat :=
  ps.foldl (fun n q => match q.1 with
    | .remote _ _ off => n + (txnParts off q.2.2).foldl (fun m p => m + txnFlits (if read then 0 else p.2)) 0
    | _ => n) 0

/-! ## The copy -/

/-- What a piece read gives, with the host data left. -/
def State.readPiece (s : State) (q : Reach × Nat × Nat) (host : List Byte) : List Byte × List Byte :=
  match q.1 with
  | .scratch b off => (s.scratchBytes b off q.2.2, host)
  | .pool r off => (s.poolBytes r off q.2.2, host)
  | .dram p _ => (s.devBytes p q.2.2, host)
  | .host _ => (takeHost s.free q.2.2 host, host.drop q.2.2)
  | _ => (List.replicate q.2.2 0, host)

/-- What a read of pieces gives. -/
def State.readPieces (s : State) : List (Reach × Nat × Nat) → List Byte → List Byte × List Byte
  | [], host => ([], host)
  | q :: qs, host =>
    let r := s.readPiece q host
    let t := s.readPieces qs r.2
    (r.1 ++ t.1, t.2)

/-- Commands that a copy serves: its slot's, or every one of the step (R127). -/
def copyCmds (st : Step) (c : MvCopy) : List Nat :=
  match c.slot with
  | some k => (st.slots.filter fun q => decide (q.1 = k)).map fun q => q.2
  | none => st.slots.map fun q => q.2

/-- Write a piece. -/
def State.writePiece (s : State) (r : RodId) (f : Firing) (cmds : List Nat) (q : Reach × Nat × Nat) (bs : List Byte) : State :=
  match q.1 with
  | .scratch b off => s.writeScratch b off bs
  | .pool r off => s.writePool r off bs
  | .dram p _ => s.writeDev p bs
  | .host addr => (match cmds with
    | c :: _ => s.hostOutput f.part c addr bs
    | [] => s)
  | .remote m w off =>
    s.forEach (writeParts off bs) fun t p =>
      t.request r f.handle f.part q.2.1 1 m w (off + p.1) p.2 ((bs.drop p.1).take p.2) none
  | _ => s

/-- Write pieces one after another. -/
def State.writePieces (s : State) (r : RodId) (f : Firing) (cmds : List Nat) : List (Reach × Nat × Nat) → List Byte → State
  | [], _ => s
  | q :: qs, bs => (s.writePiece r f cmds q (bs.take q.2.2)).writePieces r f cmds qs (bs.drop q.2.2)

/-- Send the reads of a copy from a window of another module; each answer goes to its part of the destination. -/
def State.requestReads (s : State) (r : RodId) (f : Firing) (c : MvCopy) : Nat → List (Reach × Nat × Nat) → State
  | _, [] => s
  | done, q :: qs =>
    let t := match q.1 with
      | .remote m w off =>
        s.forEach (txnParts off q.2.2) fun t p =>
          t.request r f.handle f.part q.2.1 2 m w (off + p.1) p.2 [] (some ⟨.nothing, shiftPlace (done + p.1) c.dst, p.2, c.slot⟩)
      | _ => s
    t.requestReads r f c (done + q.2.2) qs

/-- A source piece that meets a poisoned or restoring burst, or a destination piece that would merge into one (R235,
R241): its frame. -/
def State.poisonOf (s : State) (src dst : List (Reach × Nat × Nat)) : Option Nat :=
  let a := src.findSome? fun q => match q.1 with
    | .dram p _ => if s.badRead p q.2.2 then some p.frame else none
    | _ => none
  match a with
  | some f => some f
  | none => dst.findSome? fun q => match q.1 with
    | .dram p _ => if (p.bursts q.2.2).any (fun u => s.badBurst u && !p.covers q.2.2 u) then some p.frame else none
    | _ => none

/-- A destination piece that the secondary may not write (R96). -/
def State.barred (s : State) (dst : List (Reach × Nat × Nat)) : Bool :=
  dst.any fun q => match q.1 with
    | .dram p _ => s.secondaryBars p q.2.2
    | _ => false

/-- A piece in host memory. -/
def isHost (q : Reach × Nat × Nat) : Bool :=
  match q.1 with
  | .host _ => true
  | _ => false

/-- A piece in a window of another module. -/
def isRemote (q : Reach × Nat × Nat) : Bool :=
  match q.1 with
  | .remote _ _ _ => true
  | _ => false

/-- A write to a page that the module is switching waits for the switch (R250). -/
def busyPiece (q : Reach × Nat × Nat) : Bool :=
  match q.1 with
  | .dram _ busy => busy
  | _ => false

/-- How a copy attempt ends: done, or it waits (with nothing moved). -/
inductive CopyEnd where
  | done (s : State) (host : List Byte)
  | wait (s : State)

/-- Charge a copy's units: mover, host DMA and link (R138, R351, R379). -/
def State.chargeCopy (s : State) (f : Firing) (frame len host link : Nat) : Except Nat State :=
  match s.chargeFiring f frame 5 ((len + 63) / 64) with
  | none => .error 5
  | some a => match a.chargeFiring f frame 6 ((host + 63) / 64) with
    | none => .error 6
    | some b => match b.chargeFiring f frame 7 link with
      | none => .error 7
      | some c => .ok c

/-- Use up the answers for the shared pages that a copy touched. -/
def State.useAnswers (s : State) (n : Nat) (pages : List Nat) : State :=
  if pages = [] then s
  else s.modPort n fun x => { x with answered := x.answered.filter fun p => !pages.contains p }

/-- The bursts that a copy reads: those of its source, and those of its destination that it writes in part (R235). -/
def burstsRead (src dst : List (Reach × Nat × Nat)) : List Unit64 :=
  (src.flatMap fun q => match q.1 with
    | .dram p _ => p.bursts q.2.2
    | _ => []) ++
  dst.flatMap fun q => match q.1 with
    | .dram p _ => (p.bursts q.2.2).filter fun u => !p.covers q.2.2 u
    | _ => []

/-- Perform one copy of a firing's step whose pages have all translated; `found` are errors that its reads may find. -/
def State.runCopy (s : State) (r : RodId) (f : Firing) (st : Step) (a : Access) (c : MvCopy) (host : List Byte)
    (found : List BurstFound) : CopyEnd :=
  let src := s.reaches a c.src c.len false
  let dst := s.reaches a c.dst c.len true
  let shared := s.sharedOf f.part (src ++ dst)
  let cmds := copyCmds st c
  if src = [] ∨ dst = [] ∨ c.len = 0 then .done s host
  else if dst.any busyPiece ∨ !shared.all (fun p => (s.port f.part).answered.contains p) then .wait s
  else match s.chargeCopy f r.frame c.len (hostLength src + hostLength dst) (linkUnits true src + linkUnits false dst) with
  | .error act => .wait (s.holdTally f.part r.frame act)
  | .ok s =>
    let s := (s.useAnswers f.part shared).findErrors (burstsRead src dst) found
    match s.poisonOf src dst with
    | some fr => .done ((s.countPoison fr).faultStep f.handle) host
    | none =>
      if s.barred dst then .done (s.faultStep f.handle) host
      else if src.any isHost ∧ !s.hostReachable f.part then
        .done (s.forEach cmds fun t k => t.modCmd k fun x => { x with lostRead := true }) host
      else if src.any isRemote then .done (s.requestReads r f c 0 src) host
      else
        let bs := s.readPieces src host
        let t := if src.any isHost then { s with free := s.free + c.len } else s
        .done (t.writePieces r f cmds dst bs.1) bs.2

/-- An address of a command's request block or output, in the batch slot that holds it; each step of a sequence writes at
the position for its STEP (R127, R223, R301). -/
def State.slotVa (s : State) (f : Firing) (st : Step) (slot off : Nat) (out : Bool) : Option Nat :=
  match st.slots.find? fun q => decide (q.1 = slot) with
  | some q => (s.cmd q.2).map fun x =>
    (if out then x.op2.toNat + (if f.img.seq then x.steps * f.img.contents.outputBytes else 0) else x.op1.toNat) + off
  | none => none

/-! ## Requests of channel 3 (R124, R277) -/

/-- A row that a handed-over position can go on with: neither its entry's burst nor its own is poisoned
or restoring, and its entry is present and valid (R72, R91, R241, R483). -/
def State.rowReady (s : State) (h f table row : Nat) : Bool :=
  match s.rowFor h f table row with
  | none => false
  | some r =>
    let e := s.entryAt r
    !s.entryBad r && e.present && !r.table.desc.badEntry e && !s.rowBad (e.unit r.shard.frame) e.cls r.table.desc.blocks

/-- The bursts that a read of a row makes: that of its directory entry, and those of its slot. -/
def State.rowReads (s : State) (h f table row : Nat) : List Unit64 :=
  match s.rowFor h f table row with
  | none => []
  | some r =>
    let e := s.entryAt r
    r.entry.burst :: (if e.present ∧ e.cls < 3 then rowUnits (e.unit r.shard.frame) e.cls r.table.desc.blocks else [])

/-- Where the accumulator of an ADD_SCALED lies: on a page that the source's firing pins, or that another pin table holds, or that
carries PIN in the tree of the table's partition, on the row's frame and inside a mirrored range, 4 B aligned (R82, R272). -/
def State.accPlace (s : State) (t : Table) (frame : Nat) (op : CarryOp) (src : CarrySource) : Option Place :=
  let va := op.accAddr.toNat
  let pins := match src with
    | .step _ h => (match s.firing h with
      | some f => f.pins
      | none => [])
    | _ => []
  let page := match pinFind pins va with
    | some g => some g
    | none => s.heldPage t.owner va
  match page with
  | none => none
  | some g =>
    let p := g.place.add (va % 65536)
    if va % 4 = 0 ∧ p.frame = frame ∧ s.mirrored p 4 then some p else none

/-- The accumulator of an ADD_SCALED lies on a poisoned or restoring burst (R241). -/
def State.accBad (s : State) (f : Nat) (op : CarryOp) (src : CarrySource) : Bool :=
  decide (op.opcode = 2) &&
    match s.srcTable src f op.table.toNat with
    | none => false
    | some t => match s.accPlace t f op src with
      | some p => s.badRead p 4
      | none => false

/-- Bursts that hold the blocks of a span. -/
def spanBursts (cls first count : Nat) : List Nat :=
  if count = 0 then []
  else (List.range ((first + count - 1) / perBurst cls + 1 - first / perBurst cls)).map fun i => first / perBurst cls + i

/-- Some burst of an operation's span is poisoned or restoring (R241). -/
def State.spanBad (s : State) (u : Unit64) (cls : Nat) (op : CarryOp) : Bool :=
  (spanBursts cls op.firstBlock.toNat op.blockCount.toNat).any fun i => s.badBurst { u with num := u.num + i }

/-- The bursts that a carry operation reads: that of its row's directory entry, those of its span, that of its accumulator. -/
def State.opReads (s : State) (f : Nat) (op : CarryOp) (src : CarrySource) : List Unit64 :=
  match s.srcRow src f op.table.toNat op.row.toNat with
  | none => []
  | some r =>
    let e := s.entryAt r
    let u := e.unit f
    r.entry.burst ::
      ((if e.present ∧ e.cls < 3 then (spanBursts e.cls op.firstBlock.toNat op.blockCount.toNat).map fun i => { u with num := u.num + i }
        else []) ++
      (if op.opcode = 2 then ((s.accPlace r.table f op src).map fun p => p.bursts 4).getD [] else []))

/-- A carry operation can go on: its row is present and valid, and nothing that it reads is poisoned (R91, R241, R483); on an entry
with CLASS 3 it is discarded. -/
def State.opReady (s : State) (f : Nat) (op : CarryOp) (src : CarrySource) : Bool :=
  match s.srcRow src f op.table.toNat op.row.toNat with
  | none => true
  | some r =>
    let e := s.entryAt r
    !s.entryBad r && (decide (e.cls = 3) || (e.present && !r.table.desc.badEntry e &&
      !s.spanBad (e.unit f) e.cls op && !s.accBad f op src))

/-- Every command of a step has timed out. -/
def Step.allKilled (st : Step) : Bool := decide (st.slots ≠ []) && st.slots.all fun q => st.killed.contains q.1

/-- The copies of a request that serve a command that has not timed out (R280, R306). -/
def liveCopies (st : Step) (ts : List MvCopy) : List MvCopy :=
  ts.filter fun c => match c.slot with
    | some k => !st.killed.contains k
    | none => !st.allKilled

/-- A request without the copies of killed slots. -/
def MvReq.live (q : MvReq) (f : Firing) : MvReq :=
  match q.kind, f.step with
  | .copy ts, some st => { q with kind := .copy (liveCopies st ts) }
  | _, _ => q

/-- Channel 3 of a rod as an access. -/
def channel3 (r : RodId) (f : Firing) : Access := ⟨r.frame, f.part, f.pins, true⟩

/-- The index at a position of a list. -/
def indexAt (l : IndexList) (p : Nat) : Word32 := (l.indices[p]?).getD 0xFFFFFFFF

/-- The fault that the oldest request of channel 3 meets now (R275, R282). -/
def State.headFault (s : State) (r : RodId) (f : Firing) (q : MvReq) : Option Raise :=
  match q.kind with
  | .copy ts =>
    let live := match f.step with
      | some st => liveCopies st ts
      | none => ts
    (match live with
    | [] => none
    | c :: _ => (s.copyFault (channel3 r f) c).map fun e =>
      ⟨e.1, e.2.1, pageKey e.2.2, BitVec.ofNat 64 e.2.2, r.toRef, f.handle, 0, .channel r f.handle⟩)
  | .gather fr _ l p =>
    let row := (indexAt l p).toNat
    if s.rowReady l.handle fr l.table row then none
    else some ⟨0x05, 1, rowFaultKey l.table row, rowFaultAddr l.table row, r.toRef, f.handle, l.firstPos + p,
      .channel r f.handle⟩
  | .carry fr op src =>
    let table := op.table.toNat
    let row := op.row.toNat
    if s.opReady fr op src then none
    else some ⟨0x06, 2, rowFaultKey table row, rowFaultAddr table row, r.toRef, f.handle, 0, .channel r f.handle⟩

/-- The oldest request of channel 3 walks its pages; if it faults the channel stalls and the fault is raised (R275, R277,
R280). -/
def State.probe (s : State) (r : RodId) : State :=
  let ch := s.chan r 3
  match ch.reqs with
  | [] => s
  | q :: _ =>
    if ch.stalled ∨ q.dead then s
    else match s.firing q.handle with
    | none => s
    | some f =>
      match s.headFault r f q with
      | none => s
      | some x =>
        -- a position or operation that serves only commands that have timed out waits for nothing (R280)
        if f.step.any Step.allKilled then s.setChan r 3 { ch with reqs := { q with dead := true } :: ch.reqs.drop 1 }
        else (s.setChan r 3 { ch with reqs := q.live f :: ch.reqs.drop 1, stalled := true }).raiseFault f.part x

/-- Put a request into a channel; the oldest one of channel 3 walks at once. -/
def State.pushReq (s : State) (r : RodId) (c : Nat) (q : MvReq) : State :=
  let ch := s.chan r c
  let t := s.setChan r c { ch with reqs := ch.reqs ++ [q] }
  if c = 3 ∧ ch.reqs = [] then t.probe r else t

/-- The oldest request of a channel leaves. -/
def State.popReq (s : State) (r : RodId) (c : Nat) : State :=
  let ch := s.chan r c
  let t := s.setChan r c { ch with reqs := ch.reqs.drop 1, stalled := false }
  if c = 3 then t.probe r else t

end Sys2Proof.Machine
end

