-- ==== Sys2Proof/Machine/Rings.lean ====
section
/-! DEFINITION. Rings, doorbells, descriptors and chains: DOORBELL_SNOOP to CHAIN_START, COMPLETION_SPACE_RECHECK, RING_ENABLE,
RING_DISABLE, RING_DRAIN_END (R288 to R320). -/

namespace Sys2Proof.Machine

/-! ## The fetch loop (R300) -/

/-- arm(): CXL takes the doorbell line in shared bias, PCIe records the nudge epoch. -/
def Ring.arm (r : Ring) (cxl : Bool) : Ring :=
  if cxl then { r with lineHeld := true, snooped := false } else { r with armed := r.nudges }

/-- woken(): a wakeup since the last arm(). -/
def Ring.woken (r : Ring) (cxl : Bool) : Bool := if cxl then r.snooped else decide (r.nudges ≠ r.armed)

/-- The top of the loop: FETCHING, armed, and a doorbell read under way. -/
def Ring.top (r : Ring) (cxl : Bool) : Ring :=
  { (r.arm cxl) with state := 2, tries := 0, fetchDue := false, fetched := [] }

/-- A wakeup starts a ring that sleeps in IDLE or AWAIT (R293, R294, R315). -/
def Ring.wake (r : Ring) (cxl : Bool) : Ring := if r.state = 1 ∨ r.state = 3 then r.top cxl else r

/-- Sleep in a state unless a wakeup has come since arm(). -/
def Ring.sleep (r : Ring) (cxl : Bool) (st : Nat) : Ring := if r.woken cxl then r.top cxl else { r with state := st }

/-- AWAIT_ENTRY (R315): AWAITS rises, and the ring parks unless woken. -/
def Ring.park (r : Ring) (cxl : Bool) : Ring :=
  ({ r with awaits := min (r.awaits + 1) 0xFFFF } : Ring).sleep cxl 3

/-- How many descriptors the tail offers, counting modulo 65,536 (R292). -/
def Ring.offered (r : Ring) : Nat := (r.tail - r.fetchSeq).toNat

/-- A port may fetch: released, ATTACHED, its partition exists and the module has a kiln master (R21, R336, R346). -/
def State.fetches (s : State) (p : Nat) : Bool :=
  s.up && s.hasMaster && s.partExists p && decide ((s.port p).state = 2)

/-- DOORBELL_SNOOP (R293): a host write takes the doorbell line of a CXL port, and wakes the ring. -/
def snoopRing (cxl : Bool) (r : Ring) : Ring :=
  if cxl ∧ r.lineHeld then ({ r with snooped := true, lineHeld := false } : Ring).wake cxl else r

/-- DOORBELL_SNOOP. -/
def execDoorbellSnoop (port ring : Nat) (s : State) : Outcome :=
  within (ringOk port ring) (s.when s.up fun s => s.modRing port ring (snoopRing (s.port port).cxl))

/-- NUDGE (R294): in plain PCIe mode, a write of 1 to 8 B at r × 64 adds 1 to the nudge epoch of ring r and wakes it; any
other write to the page is ignored. -/
def execNudge (port offset size : Nat) (s : State) : Outcome :=
  within (portOk port)
    (s.when (s.up && !(s.port port).cxl && decide ((s.port port).state ≠ 0) && decide (offset % 64 = 0) &&
        decide (offset / 64 < 64) && decide (1 ≤ size ∧ size ≤ 8)) fun s =>
      s.modRing port (offset / 64) fun r => ({ r with nudges := r.nudges + 1 } : Ring).wake false)

/-- What every read of the doorbell word takes (R289, R292): DESC_TAIL and CPL_HEAD; BAD_TAIL shows whether it offered more
than N. -/
def Ring.takeDoorbell (r : Ring) (w : Word64) : Ring :=
  let r := { r with tail := w.extractLsb' 0 16, cplHead := w.extractLsb' 16 16 }
  { r with badTail := decide (r.size < r.offered) }

/-- The doorbell word as the fetch loop takes it (R292, R300): with none or more than N offered the ring is empty. -/
def Ring.readDoorbell (r : Ring) (cxl : Bool) (w : Word64) : Ring :=
  let r := r.takeDoorbell w
  if r.badTail ∨ r.offered = 0 then r.sleep cxl 1 else { r with tries := 0, fetchDue := true }

/-- A read of the nudge page returns 0 at every offset (R294). -/
def nudgeRead (_offset : Nat) : Word64 := 0

/-- DOORBELL_READ (R300). -/
def execDoorbellRead (port ring : Nat) (word : Word64) (s : State) : Outcome :=
  within (ringOk port ring)
    (s.when (s.fetches port && decide ((s.ring port ring).state = 2) && decide ((s.ring port ring).fetched = []) &&
        decide ((s.ring port ring).tries = 0) && !(s.ring port ring).fetchDue) fun s =>
      s.modRing port ring fun r => r.readDoorbell (s.port port).cxl word)

/-- A descriptor read for sequence number `q` is valid: SEQ and PHASE match (R297). -/
def validDesc (n : Nat) (q : BitVec 16) (d : RawDesc) : Bool :=
  decide (d.w7.extractLsb' 0 16 = q) && (d.w7.getLsbD 16 == decide (q.toNat / n % 2 = 0))

/-- The valid descriptors at the front of a read, in SEQ order up to the first invalid one (R297). -/
def validPrefix (n : Nat) (q : BitVec 16) : List RawDesc → List RawDesc
  | [] => []
  | d :: ds => if validDesc n q d then d :: validPrefix n (q + 1) ds else []

/-- Host bus address of the descriptor slot of sequence number `q`: slot q mod N (R288, R289). -/
def Ring.descAddr (r : Ring) (q : BitVec 16) : Nat := r.descBase.toNat * 4096 + q.toNat % r.size * 64

/-- The descriptors that host memory holds at the slots of `n` sequence numbers from `q` on, up to the first slot that the
read does not return (R288, R297; log 90). -/
def Ring.slotsFrom (r : Ring) (host : List (Nat × RawDesc)) (q : BitVec 16) : Nat → List RawDesc
  | 0 => []
  | n + 1 =>
    match Sparse.find host (r.descAddr q) with
    | none => []
    | some d => d :: r.slotsFrom host (q + 1) n

/-- A descriptor read of up to 8 returns: its valid prefix is kept, or the read was invalid (R297, R300). -/
def Ring.readDescs (r : Ring) (cxl : Bool) (host : List (Nat × RawDesc)) : Ring :=
  match validPrefix r.size r.fetchSeq (r.slotsFrom host r.fetchSeq (max 1 (min 8 r.offered))) with
  | [] =>
    let r := { r with tries := r.tries + 1, fetchDue := false }
    if 8 < r.tries then r.park cxl else r
  | v => { r with fetched := v, fetchDue := false }

/-- DESC_FETCH (R297): `host` is what host memory holds, by address of 64 B. -/
def execDescFetch (port ring : Nat) (host : List (Nat × RawDesc)) (s : State) : Outcome :=
  within (ringOk port ring)
    (s.when (s.fetches port && decide ((s.ring port ring).state = 2) && (s.ring port ring).fetchDue) fun s =>
      s.modRing port ring fun r => r.readDescs (s.port port).cxl host)

/-- REFETCH_TIMER (R300): 1 µs after an invalid read, the descriptor is fetched again, or the ring parks after the ninth. -/
def execRefetchTimer (port ring : Nat) (s : State) : Outcome :=
  within (ringOk port ring)
    (s.when (s.fetches port && decide ((s.ring port ring).state = 2) && decide ((s.ring port ring).tries ≠ 0) &&
        !(s.ring port ring).fetchDue && decide ((s.ring port ring).fetched = [])) fun s =>
      s.modRing port ring fun r =>
        if 8 < r.tries then r.park (s.port port).cxl else { r with fetchDue := true })

/-! ## Descriptors (R296, R298, R301) -/

/-- The fields of a descriptor (R296). -/
def parseDesc (d : RawDesc) : Desc where
  opcode := bits d.w0.toNat 7 0
  flags := d.w0.extractLsb' 8 8
  tag := d.w0.extractLsb' 16 16
  timeoutUs := bits d.w0.toNat 63 32
  waitFence := bits d.w1.toNat 7 0
  signalFence := bits d.w1.toNat 15 8
  waitValue := d.w1.extractLsb' 32 32
  signalValue := d.w2.extractLsb' 0 32
  chainAddr := d.w3
  op0 := d.w4
  op1 := d.w5
  op2 := d.w6
  validity := d.w7
  reserved := decide (bits d.w0.toNat 15 14 ≠ 0 ∨ bits d.w1.toNat 31 16 ≠ 0 ∨ bits d.w2.toNat 63 32 ≠ 0 ∨
    bits d.w7.toNat 63 17 ≠ 0)

/-- A device virtual address fits in 52 bits (R268). -/
def vaOk (w : Nat) : Bool := decide (w < 2 ^ 52)

/-- The operand words of an opcode: reserved bits 0 and each field in its range; false for a reserved opcode (R298, R301,
R250, R274, R302). -/
def operandsOk (op a b c : Nat) : Bool :=
  match op with
  | 0x01 => vaOk a && decide (b = 0 ∧ c = 0)
  | 0x02 => decide (a < 2 ^ 48) && vaOk b && vaOk c
  | 0x03 => decide (a < 2 ^ 32) && vaOk b && decide (c = 0)
  | 0x04 => decide (a < 2 ^ 32 ∧ b = 0 ∧ c = 0)
  | 0x05 => decide (a < 2 ^ 32 ∧ b = 0 ∧ c = 0)
  | 0x06 => decide (a < 2 ^ 32 ∧ b = 0 ∧ c = 0)
  | 0x08 => vaOk a && decide (a % 32 = 0 ∧ b % 32 = 0 ∧ c = 0)
  | 0x09 => decide (bits a 31 17 = 0 ∧ b < 2 ^ 32) && vaOk c
  | 0x0A => decide (bits a 31 16 = 0)
  | 0x10 => vaOk a && decide (a % 65536 = 0 ∧ b % 65536 = 0 ∧ c < 128) &&
      (decide (bits c 1 0 = 0 ∨ bits c 1 0 = 3) || decide (bits c 6 2 < 20))
  | 0x11 => decide (c < 2 ^ 11 ∧ bits c 2 0 ≤ 5) && (decide (bits c 5 4 = 0 ∨ bits c 5 4 = 3) || decide (bits c 10 6 < 20)) &&
      (if bitAt c 3 then decide (bits a 31 16 = 0) else vaOk a)
  | 0x12 => vaOk a && decide (a % 65536 = 0 ∧ b % 65536 = 0 ∧ c = 0)
  | 0x18 => decide (a < 2 ^ 32 ∧ b = 0 ∧ c = 0)
  | 0x19 => decide (a < 2 ^ 32 ∧ b = 0 ∧ c = 0)
  | 0x1A => decide (a < 2 ^ 32 ∧ c = 0) && vaOk b
  | 0x20 => decide (a < 2 ^ 32 ∧ bits b 31 20 = 0 ∧ bits b 62 48 = 0) && vaOk c
  | 0x28 => decide (a = 0 ∧ b = 0 ∧ c = 0)
  | 0x29 => decide (a = 0 ∧ b = 0 ∧ c = 0)
  | 0x30 => decide (a = 0 ∧ b = 0 ∧ c = 0)
  | 0x31 => vaOk a && decide (b < 4 ∧ c = 0)
  | 0x38 => decide (a = 0 ∧ b = 0 ∧ c = 0)
  | 0x3F => decide (a = 0 ∧ b = 0 ∧ c = 0)
  | _ => false

/-- FORMAT_CHECK (R296, R298, R302): a known opcode, reserved bits 0, ranges, and the rules of the flags. Whether an
INDIRECT command's operands pass is tested when its block is read. -/
def Desc.formatOk (d : Desc) (chained : Bool) : Bool :=
  let known := [0x01, 0x02, 0x03, 0x04, 0x05, 0x06, 0x08, 0x09, 0x0A, 0x10, 0x11, 0x12, 0x18, 0x19, 0x1A, 0x20, 0x28,
    0x29, 0x30, 0x31, 0x38, 0x3F].contains d.opcode
  known && !d.reserved && decide (1 ≤ d.timeoutUs) &&
  !(d.flags.getLsbD 4 && d.flags.getLsbD 5) &&
  (d.flags.getLsbD 4 || d.flags.getLsbD 5 || decide (d.chainAddr = 0)) &&
  vaOk d.chainAddr.toNat && decide (d.chainAddr.toNat % 64 = 0) &&
  (!chained || decide (d.validity = 0)) &&
  (if d.indirect then decide (d.op1 = 0 ∧ d.op2 = 0 ∧ d.op0.toNat % 32 = 0) && vaOk d.op0.toNat
   else operandsOk d.opcode d.op0.toNat d.op1.toNat d.op2.toNat)

/-! ## Acceptance (R291, R298, R341) -/

/-- Commands of a port in flight. -/
def State.portInflight (s : State) (p : Nat) : Nat := (s.cmds.filter fun c => decide (c.port = p)).length

/-- Places in use of the 12,288 that the ports share: what each port holds past its own 1,024 (R291). -/
def State.sharedPlaces (s : State) : Nat := (List.range 4).foldl (fun n p => n + (s.portInflight p - 1024)) 0

/-- A place for one more command of a ring, and room for its shadow entry (R291, R341). -/
def State.hasPlace (s : State) (p r : Nat) : Bool :=
  decide ((s.ring p r).inflight < min 512 (s.ring p r).size) &&
  (decide (s.portInflight p < 1024) || decide (s.sharedPlaces < 12288)) &&
  (decide ((s.part p).live.shadowBase = 0) || decide ((s.port p).shadowUnread + s.portInflight p < 16384))

/-- Frames whose stack is at band 2 (R47, R49). -/
def State.hotFrames (s : State) : BitVec 20 :=
  (List.range 20).foldl (fun m f => setBit m f (decide (2 ≤ (s.frame f).mem.band))) 0

/-- Some frame that an image names has been at band 2 since a command was accepted (R47, R49). -/
def Cmd.met (c : Cmd) (i : Image) : Bool := (List.range 20).any fun f => i.names f && inMask c.hot f

/-- FIRING_RUN commands of a firing accepted before command `id` and not yet taken into a step (R27). One whose parameter
block is still to be read names no firing yet (log 84). -/
def State.queueLength (s : State) (id port handle : Nat) : Nat :=
  (s.cmds.filter fun c => decide (c.id < id ∧ c.port = port ∧ c.d.opcode = 0x02 ∧ c.op0.toNat % 2 ^ 32 = handle) &&
    (match c.phase with
      | .inSlot _ => false
      | .fence | .params => !c.d.indirect
      | _ => true)).length

/-- SEQ_STEPS of a FIRING_RUN (R301). -/
def Cmd.seqSteps (c : Cmd) : Nat := bits c.op0.toNat 47 32

/-- The moment a command starts (R24, R222): a FIRING_RUN tests its handle and SEQ_STEPS; any command then is ready. -/
def State.startCmd (s : State) (c : Cmd) : State :=
  if c.d.opcode = 0x02 then
    match s.firing c.handle with
    | none => s.refuse c.id 0x10
    | some f =>
      if f.part ≠ c.port then s.refuse c.id 0x10
      else if (f.img.seq && decide (1 ≤ c.seqSteps ∧ c.seqSteps ≤ f.img.maxSteps)) || (!f.img.seq && decide (c.seqSteps = 0)) then
        s.modCmd c.id fun x => { x with phase := .ready }
      else s.refuse c.id 0x1A
  else s.modCmd c.id fun x => { x with phase := .ready }

/-- After its fences: an INDIRECT command waits for its parameter block, any other starts (R302, R303). -/
def State.afterFence (s : State) (c : Cmd) : State :=
  if c.d.indirect then s.modCmd c.id fun x => { x with phase := .params } else s.startCmd c

/-- A command at its acceptance (R298). -/
def newCmd (id port ring : Nat) (seq : BitVec 16) (d : Desc) (chained : Bool) (depth q : Nat) (down : Option (BitVec 16)) :
    Cmd where
  id := id
  port := port
  ring := ring
  seq := seq
  d := d
  chained := chained
  depth := depth
  phase := .fence
  op0 := d.op0
  op1 := d.op1
  op2 := d.op2
  atRisk := false
  hot := 0
  faulted := false
  tripped := false
  abandoned := false
  q := q
  steps := 0
  blocks := []
  outstanding := 0
  applied := 0
  discarded := 0
  steps0 := []
  copied := []
  result := 0
  down := down
  lostOutput := false
  lostRead := false
  targets := []
  done := 0
  asked := []
  remoteBad := false
  buf := []

/-- Put a command in flight (R291). -/
def State.addCmd (s : State) (c : Cmd) : State :=
  ({ s with cmds := s.cmds ++ [c], nextCmd := s.nextCmd + 1 } : State).modRing c.port c.ring fun r =>
    { r with inflight := r.inflight + 1 }

/-- Acceptance (R298): a place, the format check, then fences and parameters. A command that fails the check completes
with STATE_REFUSED and DETAIL 0xF0. -/
def State.accept (s : State) (port ring : Nat) (seq : BitVec 16) (d : Desc) (chained : Bool) (depth : Nat)
    (down : Option (BitVec 16)) : State :=
  let c := { newCmd s.nextCmd port ring seq d chained depth (s.queueLength s.nextCmd port (d.op0.toNat % 2 ^ 32)) down with
    hot := s.hotFrames }
  let t := s.addCmd c
  if !d.formatOk chained then t.refuse c.id 0xF0
  else if d.waits && !fencePast (Sparse.read 0#32 (s.part port).fences d.waitFence) d.waitValue then t
  else t.afterFence c

/-- A ring that could accept a descriptor now: one is fetched, a place and shadow room exist, and no chained command waits for the
place (R298, R304, R318, R341). -/
def State.canAccept (s : State) (p r : Nat) : Bool :=
  decide ((s.ring p r).state = 2 ∧ (s.ring p r).fetched ≠ []) && s.hasPlace p r && decide ((s.ring p r).chains = [])

/-- Round robin over the rings of a port: no ring between the one served last and this one could accept (R299). -/
def State.ringTurn (s : State) (p r : Nat) : Bool :=
  let last := (s.port p).lastRing
  (List.range ((r + 64 - (last + 1)) % 64)).all fun k => !s.canAccept p ((last + 1 + k) % 64)

/-- DESC_ACCEPT (R298, R299): the next valid descriptor, in SEQ order, one in the ring's turn. -/
def execDescAccept (port ring : Nat) (s : State) : Outcome :=
  within (ringOk port ring)
    (s.when (s.fetches port && s.canAccept port ring && s.ringTurn port ring) fun s =>
      match (s.ring port ring).fetched with
      | [] => s
      | d :: ds =>
        let cxl := (s.port port).cxl
        let seq := (s.ring port ring).fetchSeq
        ((s.modPort port fun p => { p with lastRing := ring }).modRing port ring fun r =>
          let r := { r with fetchSeq := r.fetchSeq + 1, fetched := ds }
          if ds = [] then r.top cxl else r).accept port ring seq (parseDesc d) false 0 none)

/-- FENCE_SATISFIED (R303): a waiting command's fence is at or past WAIT_VALUE, so the command starts. -/
def execFenceSatisfied (c : Nat) (s : State) : Outcome :=
  within true <| s.withSome (s.cmd c) fun s x =>
    s.when (decide (x.phase = .fence) && !s.cplHeld x && x.d.waits &&
        fencePast (Sparse.read 0#32 (s.part x.port).fences x.d.waitFence) x.d.waitValue) fun s => s.afterFence x

/-- PARAM_BLOCK_READ (R302): 32 B of pinned device memory of the partition; unreadable gives 0xF2, a broken rule 0xF0. -/
def execParamBlockRead (c : Nat) (s : State) : Outcome :=
  within true <| s.withSome (s.cmd c) fun s x =>
    s.when (decide (x.phase = .params) && !s.cplHeld x) fun s =>
      match s.pinnedPage x.port x.d.op0.toNat with
      | none => s.refuse c 0xF2
      | some g =>
        let p := g.place.add (x.d.op0.toNat % 65536)
        if s.badRead p 32 then (s.countPoison p.frame).refuse c 0xF2
        else
          let a := s.devNat p 8
          let b := s.devNat (p.add 8) 8
          let d := s.devNat (p.add 16) 8
          if s.devNat (p.add 24) 8 ≠ 0 ∨ !operandsOk x.d.opcode a b d then s.refuse c 0xF0
          else
            let y := { x with op0 := BitVec.ofNat 64 a, op1 := BitVec.ofNat 64 b, op2 := BitVec.ofNat 64 d }
            let y := { y with q := s.queueLength c x.port y.handle }
            (s.modCmd c fun _ => y).startCmd y

/-! ## Chains (R304, R305) -/

/-- The 64 B of a descriptor in device memory. -/
def State.descAt (s : State) (p : Place) : RawDesc :=
  let w := fun i => BitVec.ofNat 64 (s.devNat (p.add (8 * i)) 8)
  ⟨w 0, w 1, w 2, w 3, w 4, w 5, w 6, w 7⟩

/-- A chain descriptor that could not be read: its TAG and opcode are values the spec leaves unstated (log 19). -/
def unreadDesc (n : Nat) : Desc where
  opcode := Config.freeTime n % 256
  flags := 0
  tag := BitVec.ofNat 16 (Config.freeTime (n + 1))
  timeoutUs := 0
  waitFence := 0
  signalFence := 0
  waitValue := 0
  signalValue := 0
  chainAddr := 0
  op0 := 0
  op1 := 0
  op2 := 0
  validity := 0
  reserved := false

/-- The chain descriptor at a device virtual address of a port's partition, where it can be read (R304). -/
def State.chainDesc (s : State) (port va : Nat) : Option Desc :=
  match s.pinnedPage port va with
  | none => none
  | some g =>
    let p := g.place.add (va % 65536)
    if s.badRead p 64 then none else some (parseDesc (s.descAt p))

/-- CHAIN_START (R304, R305, R341): the oldest chain of a ring, when it gets a place. Depth over 255 gives 0xF1, a
descriptor that cannot be read 0xF2; neither has a side effect, a signal or a chain of its own (log 19). -/
def execChainStart (port ring : Nat) (s : State) : Outcome :=
  within (ringOk port ring)
    (s.when (s.up && s.hasPlace port ring) fun s =>
      match (s.ring port ring).chains with
      | [] => s
      | (addr, seq, depth) :: rest =>
        let s := s.modRing port ring fun r => { r with chains := rest }
        let down := if (s.port port).state = 0 ∨ (s.port port).state = 1 then some (s.port port).epoch else none
        let bad := fun (d : Desc) detail => ((s.addCmd
          (newCmd s.nextCmd port ring seq { d with flags := 0 } true depth 0 down)).tick.tick).refuse s.nextCmd detail
        match s.chainDesc port addr.toNat with
        | none => bad (unreadDesc s.free) (if 255 < depth then 0xF1 else 0xF2)
        | some d => if 255 < depth then bad d 0xF1 else s.accept port ring seq d true depth down)

/-! ## Completion space and ring control -/

/-- COMPLETION_SPACE_RECHECK (R309): the doorbell word is read again, and held records are written while space lasts. -/
def State.writeHeld (s : State) (port ring : Nat) : List (Nat × CplRecord) → State
  | [] => s.modRing port ring fun r => { r with held := [] }
  | (c, r) :: rest =>
    match s.cmd c with
    | none => s.writeHeld port ring rest
    | some x =>
      if (s.ring port ring).hasSpace then
        (s.postRecord x { r with fetched := (s.ring port ring).fetchSeq }).writeHeld port ring rest
      else s.modRing port ring fun g => { g with held := (c, r) :: rest }

/-- COMPLETION_SPACE_RECHECK. -/
def execCompletionSpaceRecheck (port ring : Nat) (word : Word64) (s : State) : Outcome :=
  within (ringOk port ring)
    (s.when (s.up && decide ((s.port port).state = 2) && decide ((s.ring port ring).held ≠ [])) fun s =>
      let s := s.modRing port ring fun r => r.takeDoorbell word
      s.writeHeld port ring (s.ring port ring).held)

/-- A write of RING_CTRL (R289, R290): LOG2_ENTRIES only while OFF; ENABLE 1 starts an OFF ring whose LOG2_ENTRIES is 6 to
12; ENABLE 0 starts a drain. -/
def writeRingCtrl (cxl : Bool) (w : Word64) (r : Ring) : Ring :=
  let r := if r.state = 0 then { r with log2 := w.extractLsb' 4 4 } else r
  if w.getLsbD 0 then
    if r.state = 0 ∧ 6 ≤ r.log2.toNat ∧ r.log2.toNat ≤ 12 then
      ({ r with enable := true, fetchSeq := 0, cplPos := 0, awaits := 0, tail := 0, cplHead := 0 } : Ring).top cxl
    else r
  else if r.state = 0 then { r with enable := false }
  else { r with enable := false, state := 4, fetched := [], tries := 0, fetchDue := false, lineHeld := false }

/-- RING_ENABLE (R290): a RING_CTRL write with ENABLE 1. -/
def execRingEnable (port ring : Nat) (value : Word64) (s : State) : Outcome :=
  within (ringOk port ring)
    (s.when (s.up && decide ((s.port port).state ≠ 0)) fun s =>
      s.modRing port ring (writeRingCtrl (s.port port).cxl (value ||| 1)))

/-- RING_DISABLE (R290, R320): a RING_CTRL write with ENABLE 0. -/
def execRingDisable (port ring : Nat) (value : Word64) (s : State) : Outcome :=
  within (ringOk port ring)
    (s.when (s.up && decide ((s.port port).state ≠ 0)) fun s =>
      s.modRing port ring (writeRingCtrl (s.port port).cxl (value &&& ~~~1)))

/-- RING_DRAIN_END (R290): INFLIGHT and the held records are 0, so the ring is OFF. -/
def execRingDrainEnd (port ring : Nat) (s : State) : Outcome :=
  within (ringOk port ring)
    (s.modRing port ring fun r => if r.state = 4 ∧ r.inflight = 0 ∧ r.held = [] then { r with state := 0 } else r)

end Sys2Proof.Machine
end

