-- ==== Sys2Proof/Machine/Gather.lean ====
section
/-! DEFINITION. Gather units: index lists, positions, the row buffer, default and zero records, promotion requests, run-ahead
(R58 to R79, R120, R241, R242, R482, R483). -/

namespace Sys2Proof.Machine

/-! ## Delivery records (R60) -/

/-- The fields of a side record. -/
structure Side where
  scale : Nat
  cls : Nat
  tier : Tier
  presence : Bool
  null : Bool
  range : Bool
  ahead : Bool
  zero : Bool
  row : Word32

/-- A side record as 8 bytes, with REPEAT clear. -/
def Side.bytes (r : Side) : List Byte :=
  leBytes 8 (r.scale % 65536 + r.cls % 4 * 2 ^ 16 + r.tier.num * 2 ^ 18 + bit r.presence * 2 ^ 19 + bit r.null * 2 ^ 21 +
    bit r.range * 2 ^ 22 + bit r.ahead * 2 ^ 23 + bit r.zero * 2 ^ 24 + r.row.toNat * 2 ^ 32)

/-- A delivery record: side record, glaze bytes, blocks. -/
def Side.record (r : Side) (glaze blocks : List Byte) : List Byte :=
  r.bytes ++ padTo (glazePad glaze.length) glaze ++ blocks

/-- The record of a null position: a side record alone. -/
-- AHEAD stays 0 in a run-ahead list as well: R60 gives every other field 0 (log 92).
def nullRecord : List Byte := Side.bytes ⟨0, 0, .h, false, true, false, false, false, 0xFFFFFFFF⟩

/-- A buffered record as a repeat delivers it: REPEAT set, AHEAD as the list has it (R65). -/
def repeatRecord (bs : List Byte) : List Byte :=
  bs.take 2 ++ [bs.getD 2 0 ||| 0x10] ++ bs.drop 3

/-- Cost of a delivery in gather units of 250 ps (R62, R63). -/
def gatherUnits (t : Tier) (cls blocks : Nat) : Nat :=
  4 + 3 * ((8 + glazePad blocks + 63) / 64 - 1) + rowBursts cls blocks * (match t with
    | .h => 3
    | .l => 4)

/-- Cost of a default row: tier H and DEFAULT_CLASS (R63). -/
def TableDesc.defaultUnits (d : TableDesc) : Nat := gatherUnits .h d.defaultClass d.blocks

/-- The bursts of a shard's DEFAULT copy, each translated at its own address (R52); none where one has no page. -/
def Table.defaultBursts (t : Table) (sh : ShardEntry) : Option (List Unit64) :=
  (List.range (rowBursts t.desc.defaultClass t.desc.blocks)).mapM fun i => (pinPlace t.pages (sh.default + 64 * i)).map Place.burst

/-- The glaze bytes and blocks that bursts hold. -/
def State.readBursts (s : State) (us : List Unit64) (cls blocks : Nat) : List Byte × List Byte :=
  let n := perBurst cls
  ((List.range blocks).map fun k => match us[k / n]? with
      | some u => ((s.sideBytes u)[k % n]?).getD 0
      | none => 0,
    (List.range blocks).flatMap fun k => match us[k / n]? with
      | some u => s.devBytes (u.place.add (k % n * blockBytes cls)) (blockBytes cls)
      | none => [])

/-- The default row's record from a shard's DEFAULT copy, or the zero record where the copy cannot be read, with whether
it could not (R68, R69, R242). Its row scale is one free value for each copy (log 26). -/
def State.defaultRecord (s : State) (t : Table) (sh : ShardEntry) (row : Word32) (range : Bool) : List Byte × Bool :=
  let d := t.desc
  let side : Side := ⟨(Config.defaultScale (sh.default * 32 + sh.frame)).toNat, d.defaultClass, .h, true, false, range, false,
    false, row⟩
  let zero := Side.record { side with scale := 0, zero := true } (List.replicate d.blocks 0)
    (List.replicate (d.blocks * blockBytes d.defaultClass) 0)
  match t.defaultBursts sh with
  | none => (zero, true)
  | some us =>
    if us.any s.badBurst then (zero, true)
    else
      let img := s.readBursts us d.defaultClass d.blocks
      (side.record img.1 img.2, false)

/-- A resident row's record. -/
def State.rowRecord (s : State) (r : RowAt) (e : DirEntry) (row : Word32) (ahead : Bool) : List Byte :=
  let img := s.readRow (e.unit r.shard.frame) e.cls r.table.desc.blocks e.scale
  Side.record ⟨e.scale, e.cls, e.tier, false, false, false, ahead, false, row⟩ img.glaze img.blocks

/-! ## Resolving a position (R57, R65 to R72, R77, R241, R242, R483) -/

/-- What becomes of a position. -/
structure Outlook where
  /-- the record to deliver; none: the position goes to a mover, or stays undelivered in run-ahead -/
  record : Option (List Byte)
  units : Nat
  /-- the requested row's counter is bumped -/
  bump : Bool
  /-- the row is queued for promotion -/
  promote : Bool
  /-- reads of poisoned or restoring bursts -/
  poison : Nat
  /-- the record stays in the row buffer -/
  keep : Bool

/-- A firing mode in which a gather or carry miss faults: training, maintenance, recovery (R72, R91). -/
def faultMode (m : Nat) : Bool := decide (m = 1 ∨ m = 2 ∨ m = 5)

/-- A default row in place of a requested one. -/
def State.substitute (s : State) (t : Table) (sh : ShardEntry) (row : Word32) (range promote : Bool) (poison : Nat) : Outlook :=
  let r := s.defaultRecord t sh row range
  { record := some r.1, units := t.desc.defaultUnits, bump := !range, promote := promote, poison := poison + bit r.2,
    keep := decide (rowBursts t.desc.defaultClass t.desc.blocks ≤ 32) }

/-- A position that names no row that can be read: by the firing's mode, and never delivered by run-ahead. -/
def State.miss (s : State) (r : RowAt) (row : Word32) (mode : Nat) (ahead promote : Bool) (poison : Nat) : Outlook :=
  if ahead then { record := none, units := 0, bump := false, promote := false, poison := poison, keep := false }
  else if faultMode mode then
    { record := none, units := r.table.desc.defaultUnits, bump := true, promote := false, poison := poison, keep := false }
  else s.substitute r.table r.shard row false promote poison

/-- A position of firing `h` resolved through the directory. -/
def State.lookUp (s : State) (h frame table mode : Nat) (ahead : Bool) (row : Word32) : Option Outlook :=
  match s.tableFor h frame table with
  | none => none
  | some t =>
    if t.desc.rows ≤ row.toNat then
      if ahead then some { record := none, units := 0, bump := false, promote := false, poison := 0, keep := false }
      else (t.shard 0).map fun sh => s.substitute t sh row true false 0
    else match t.rowAt row.toNat with
    | none => none
    | some r =>
      if s.entryBad r then some (s.miss r row mode ahead false 1)
      else
        let e := s.entryAt r
        let blocks := t.desc.blocks
        if !e.present then some (s.miss r row mode ahead true 0)
        else if t.desc.badEntry e then some (s.miss r row mode ahead false 0)
        else if s.rowBad (e.unit r.shard.frame) e.cls blocks then some (s.miss r row mode ahead false 1)
        else some { record := some (s.rowRecord r e row ahead), units := gatherUnits e.tier e.cls blocks, bump := true,
                    promote := false, poison := 0, keep := decide (rowBursts e.cls blocks ≤ 32) }

/-- A repeat: what the buffered position delivered, at its own cost (R63, R65). -/
def Table.again (t : Table) (bs : List Byte) : Outlook :=
  let side := fieldAt bs 0 8
  let units := if bitAt side 19 then t.desc.defaultUnits
    else gatherUnits (Tier.ofNum (bits side 18 18)) (bits side 17 16) t.desc.blocks
  { record := some (repeatRecord bs), units := units, bump := !bitAt side 22, promote := false, poison := 0, keep := true }

/-- The record that the row buffer holds for position `p` of a list: of one of its last 64 positions with the same index (R65). -/
def ListState.held (x : ListState) (buffer : List BufferEntry) (p : Nat) : Option (List Byte) :=
  (buffer.find? fun e => decide (e.list = x.num ∧ e.index = indexAt x.l p ∧ e.pos < p ∧ p ≤ e.pos + 64)).map fun e => e.record

/-- The bursts that position `p` of a list reads: that of its row's directory entry, those of the row, and those of the default
copy. -/
def State.positionReads (s : State) (frame : Nat) (buffer : List BufferEntry) (x : ListState) (p : Nat) : List Unit64 :=
  let row := indexAt x.l p
  if row = 0xFFFFFFFF ∨ (x.held buffer p).isSome then []
  else match s.tableFor x.l.handle frame x.l.table with
  | none => []
  | some t =>
    let k := if t.desc.rows ≤ row.toNat then 0 else (t.desc.shardOf row.toNat).1
    s.rowReads x.l.handle frame x.l.table row.toNat ++ ((t.shard k).bind t.defaultBursts).getD []

/-- Position `p` of a list, with what the row buffer holds. -/
def State.outlook (s : State) (frame : Nat) (buffer : List BufferEntry) (x : ListState) (mode p : Nat) : Option Outlook :=
  let row := indexAt x.l p
  if row = 0xFFFFFFFF then
    some { record := some nullRecord, units := 4, bump := false, promote := false, poison := 0, keep := false }
  else match x.held buffer p, s.tableFor x.l.handle frame x.l.table with
  | some bs, some t => some (t.again bs)
  | _, _ => s.lookUp x.l.handle frame x.l.table mode x.ahead.isSome row

/-! ## Destinations and handshakes (R59, R61, R120) -/

/-- Where a position goes: bead and scratch offset. -/
def destOf (l : IndexList) (p : Nat) : Option (BeadId × Nat) :=
  (l.route[p / max l.perBead 1]?).map fun b => (b, l.destOffset + p % max l.perBead 1 * l.destStride)

/-- Every position that a list sends to the bead of position `p` is delivered. -/
def ListState.beadDone (x : ListState) (p : Nat) : Bool :=
  let n := max x.l.perBead 1
  (List.range n).all fun i =>
    let q := p / n * n + i
    decide (x.l.indices.length ≤ q) || x.filled.contains q ||
      (decide (q < x.next) && !x.atMover.contains q && !x.missed.contains q)

/-- The done handshake of position `p`'s bead, if its slots are all written (R61). -/
def State.handshake (s : State) (x : ListState) (p : Nat) : State :=
  match destOf x.l p with
  | some d => if x.ahead.isNone && x.beadDone p then s.bump d.1 x.l.counter else s
  | none => s

/-- A list with every position delivered. -/
def ListState.finished (x : ListState) : Bool := decide (x.l.indices.length ≤ x.next ∧ x.atMover = [] ∧ x.missed = [])

/-- Gather unit `u` of a frame. -/
def Frame.gatherUnit (x : Frame) (u : Nat) : GatherUnit := Sparse.read GatherUnit.reset x.gather u

/-- Replace a gather unit. -/
def State.setGather (s : State) (f u : Nat) (g : GatherUnit) : State :=
  s.modFrame f fun x => { x with gather := Sparse.write GatherUnit.reset x.gather u g }

/-- Queue a row for promotion: not if it is one of the last 64 that the unit queued; dropped when the queue is full (R70). A row
whose request the kiln dropped (R71) is still one of those 64: DESIGN CHOICE (log 93). -/
def State.queuePromotion (s : State) (f u table row : Nat) : State :=
  let g := (s.frame f).gatherUnit u
  if g.recent.contains (table, row) then s
  else if (s.frame f).promo.length < 4096 then
    (s.setGather f u { g with recent := ((table, row) :: g.recent).take 64 }).modFrame f fun x =>
      { x with promo := x.promo ++ [⟨table, row⟩] }
  else s.modCounters f fun c => { c with promoDrops := inc32 c.promoDrops }

/-! ## Serving (R64, R76 to R78) -/

/-- The next position that a list still has to deliver, run-ahead's deliveries skipped. -/
def ListState.position (x : ListState) : Nat :=
  ((List.range (x.l.indices.length - x.next)).map (fun i => x.next + i)).find? (fun p => !x.filled.contains p)
    |>.getD x.l.indices.length

/-- A list after its position `p` was served, or handed to a mover (R65, R72). -/
def ListState.after (x : ListState) (p : Nat) (toMover : Bool) : ListState :=
  { x with
    started := true,
    next := max x.next (p + 1),
    atMover := if toMover then x.atMover ++ [p] else x.atMover,
    missed := x.missed.filter fun q => decide (q ≠ p) }

/-- A list whose position `p` waits for room at its mover; the positions after it go on (R72, R139). -/
def ListState.setBack (x : ListState) (p : Nat) : ListState :=
  { x with started := true, next := p + 1, missed := x.missed ++ [p] }

/-- The row buffer as a position finds it: the unit empties it when it starts a list (R65). -/
def GatherUnit.bufferFor (g : GatherUnit) (x : ListState) : List BufferEntry := if x.started then g.buffer else []

/-- The row buffer after a position: a delivered row of at most 32 bursts joins its 64 entries (R65; log 27). -/
def GatherUnit.keepRecord (g : GatherUnit) (x : ListState) (p : Nat) (o : Outlook) : GatherUnit :=
  let b := g.bufferFor x
  { g with buffer := match o.keep, o.record with
    | true, some bs => (⟨x.num, p, indexAt x.l p, bs⟩ :: b).take 64
    | _, _ => b }

/-- Channel 3 of a position's rod takes another request (R139). -/
def State.moverRoom (s : State) (l : IndexList) (p : Nat) : Bool :=
  match destOf l p with
  | some d => decide ((s.chan d.1.rod 3).reqs.length < 16)
  | none => true

/-- The position to serve: one that waited for its mover and finds room, or the next one (R72). -/
def State.nextPosition (s : State) (x : ListState) : Nat := (x.missed.find? (s.moverRoom x.l)).getD x.position

/-- Note a run-ahead delivery with its firing (R79). -/
def Firing.noteAhead (f : Firing) (cid p : Nat) (l : IndexList) : Firing :=
  { f with ahead := f.ahead.map fun a => if a.cid = cid ∧ a.l = l then { a with filled := a.filled ++ [p] } else a }

/-- Charge a position (R63, R78). -/
def State.chargeGather (s : State) (f : Firing) (frame : Nat) (ahead : Bool) (units : Nat) : Option State :=
  if ahead then
    let k := f.part * 16
    let used := Sparse.read 0 (s.frame frame).tally.remainder k
    if units = 0 then some s
    else if used + units ≤ s.remainderOf f.part frame 0 then
      some (s.modTally frame fun t => { t with remainder := Sparse.write 0 t.remainder k (used + units) })
    else none
  else s.chargeFiring f frame 0 units

/-- The requested row's counter. -/
def State.bumpRow (s : State) (h frame table : Nat) (row : Word32) : State :=
  match s.rowFor h frame table row.toNat with
  | some r => s.bumpCounter r
  | none => s

/-- Deliver a record into scratch. -/
def State.deliver (s : State) (l : IndexList) (p : Nat) (bs : List Byte) : State :=
  match destOf l p with
  | some d => s.writeScratch d.1 d.2 bs
  | none => s

/-- Effects of a served position apart from its charge: counter, promotion, poison, delivery. -/
def State.serve (s : State) (frame unit : Nat) (x : ListState) (p : Nat) (o : Outlook) : State × ListState :=
  let row := indexAt x.l p
  let s := (s.when o.bump fun s => s.bumpRow x.l.handle frame x.l.table row).when o.promote fun s =>
    s.queuePromotion frame unit x.l.table row.toNat
  let s := (List.range o.poison).foldl (fun s _ => s.countPoison frame) s
  match o.record, x.ahead with
  | some bs, none => let y := x.after p false; ((s.deliver x.l p bs).handshake y p, y)
  | some bs, some c => ((s.deliver x.l p bs).modFiring x.l.handle fun f => f.noteAhead c p x.l, x.after p false)
  | none, some _ => (s, x.after p false)
  | none, none => (s, x.after p (destOf x.l p).isSome)

/-- Hand a position to channel 3 of its bead's rod (R72). -/
def State.toMover (s : State) (frame unit : Nat) (x : ListState) (p : Nat) : State :=
  match destOf x.l p with
  | some d => s.pushReq d.1.rod 3 ⟨x.l.handle, d.1, .gather frame unit x.l p, 0, false, false, Known.none⟩
  | none => s

/-- Put a served list back behind the lists of other firings; a finished list leaves (R64). -/
def GatherUnit.rotate (g : GatherUnit) (y : ListState) : GatherUnit :=
  let own := g.lists.filter fun z => decide (z.l.handle = y.l.handle)
  let others := g.lists.filter fun z => decide (z.l.handle ≠ y.l.handle)
  { g with lists := others ++ (own.map fun z => if z.num = y.num then y else z).filter fun z => !z.finished }

/-- Where a list of a firing's plan is served: the frame and unit of its table's shard (R31, R52). -/
def State.planUnit (s : State) (f : Firing) (k : Nat) : Option (Nat × Nat) :=
  (f.img.contents.plan[k]?).bind fun q => (List.range 20).findSome? fun fr =>
    ((s.tableFor f.handle fr q.table).bind fun t => t.shard q.shard).bind fun sh =>
      if sh.frame = fr then some (fr, sh.unit) else none

/-- Lists of the running step's plan that a unit has still to receive. -/
def State.listsDue (s : State) (f : Firing) (frame unit : Nat) : Bool :=
  (List.range f.img.contents.plan.length).any fun k =>
    !f.sent.contains k && decide (s.planUnit f k = some (frame, unit))

/-- A run-ahead list waits until every list of its firing's running step is delivered (R76). -/
def State.tooEarly (s : State) (f : Firing) (frame unit : Nat) (x : ListState) : Bool :=
  x.ahead.isSome && ((f.step.isSome && s.listsDue f frame unit) ||
    ((s.frame frame).gatherUnit unit).lists.any fun z => z.ahead.isNone && decide (z.l.handle = x.l.handle))

/-- Serve one list, if it may be served now and its charge goes through: whether it was, and the state. A run-ahead position that
finds the remainder spent counts as a gather request that waits (R78, R353): DESIGN CHOICE (log 94). -/
def State.tryList (s : State) (frame unit : Nat) (found : List BurstFound) (x : ListState) : Bool × State :=
  let g := (s.frame frame).gatherUnit unit
  let p := s.nextPosition x
  match s.firing x.l.handle with
  | none => (false, s)
  | some f =>
    if x.l.indices.length ≤ p ∨ s.tooEarly f frame unit x then (false, s)
    else
    let s0 := s
    let s := s.findErrors (s.positionReads frame (g.bufferFor x) x p) found
    match s.outlook frame (g.bufferFor x) x f.img.mode p with
    | none => (false, s0)
    | some o =>
      let move := o.record.isNone && x.ahead.isNone && (destOf x.l p).isSome
      if move && !s.moverRoom x.l p then
        (true, s0.setGather frame unit { g with lists := g.lists.map fun z => if z.num = x.num then x.setBack p else z })
      else match s.chargeGather f frame x.ahead.isSome o.units with
      | none => (false, s0.holdTally f.part frame 0)
      | some s =>
        let r := s.serve frame unit x p o
        let g := (r.1.frame frame).gatherUnit unit
        let t := r.1.setGather frame unit ((g.keepRecord x p o).rotate r.2)
        (true, if move then t.toMover frame unit x p else t)

/-- Serve the first list that may be; a firing whose charge fails is skipped whole (R64). -/
def State.serveLists (s : State) (frame unit : Nat) (found : List BurstFound) (skip : List Nat) : List ListState → State
  | [] => s
  | x :: xs =>
    if skip.contains x.l.handle then s.serveLists frame unit found skip xs
    else
      let r := s.tryList frame unit found x
      if r.1 then r.2
      else if r.2 = s then s.serveLists frame unit found skip xs
      else r.2.serveLists frame unit found (x.l.handle :: skip) xs

/-- GATHER_POSITION: the unit serves one position; `found` are errors that its reads find. -/
def execGatherPosition (frame unit : Nat) (s : State) (found : List BurstFound := []) : Outcome :=
  within (gatherOk frame unit)
    (s.when (s.up && !(s.frame frame).fenced) fun s =>
      s.serveLists frame unit found [] ((s.frame frame).gatherUnit unit).lists)

/-! ## Lists (R59, R79, R482) -/

/-- A plan list with its table, where the unit serves the shard that the list takes (R31, R52, R482). -/
def State.planFor (s : State) (f : Firing) (frame unit k : Nat) : Option (PlanList × Table) :=
  match f.img.contents.plan[k]? with
  | none => none
  | some q =>
    match s.tableFor f.handle frame q.table with
    | none => none
    | some t => if s.planUnit f k = some (frame, unit) then some (q, t) else none

/-- An index goes to the list of a shard: of its own, or of shard 0 where it is null or ROWS or above (R51, R482). -/
def TableDesc.routes (d : TableDesc) (shard : Nat) (i : Word32) : Bool :=
  if i = 0xFFFFFFFF ∨ d.rows ≤ i.toNat then decide (shard = 0) else decide ((d.shardOf i.toNat).1 = shard)

/-- What the movers draw from request blocks: indices, what is left of the words that host memory and other modules gave, and
whether every position's page translates, and the frame of a poisoned burst. -/
structure Drawn where
  indices : List Word32
  host : List Byte
  translated : Bool
  poison : Option Nat
deriving DecidableEq, Repr

/-- One index position of a request block at a device virtual address (R482): in device memory as it stands, elsewhere the next
word of `host`. A poisoned one is taken as the null index and faults the step (R241; log 95). -/
def State.drawAt (s : State) (a : Access) (d : Drawn) (va : Nat) : Drawn :=
  match s.reach a va false with
  | .dram p _ =>
    if s.badRead p 4 then { d with indices := d.indices ++ [0xFFFFFFFF], poison := some p.frame }
    else { d with indices := d.indices ++ [BitVec.ofNat 32 (s.devNat p 4)] }
  | .bad _ => { d with translated := false }
  | _ => { d with indices := d.indices ++ [BitVec.ofNat 32 (leNat (takeHost s.free 4 d.host))], host := d.host.drop 4 }

/-- The index positions of a table in request blocks, in slot order; an empty slot gives null indices (R482). -/
def State.drawBlocks (s : State) (f : Firing) (frame table : Nat) (blocks : List (Option Nat)) (host : List Byte) : Drawn :=
  let offs := (f.img.contents.indexPositions.filter fun p => decide (p.1 = table)).map fun p => p.2
  blocks.foldl (fun d b => match b with
    | none => { d with indices := d.indices ++ offs.map fun _ => 0xFFFFFFFF }
    | some va => offs.foldl (fun d off => s.drawAt ⟨frame, f.part, f.pins, true⟩ d (va + off)) d) ⟨[], host, true, none⟩

/-- The bytes of an index list (R59): header, entries, zeros to a multiple of 64. -/
def planBytes (q : PlanList) (ahead : Bool) (indices : List Word32) : List Byte :=
  let bs := leBytes 2 q.table ++ leBytes 2 (bit ahead) ++ leBytes 4 indices.length ++ leBytes 2 q.route ++ leBytes 2 q.perBead ++
    leBytes 2 q.destOffset ++ leBytes 2 q.destStride ++ leBytes 4 q.firstPos ++ leBytes 12 0 ++
    indices.flatMap fun i => leBytes 4 i.toNat
  padTo ((bs.length + 63) / 64 * 64) bs

/-- The list that a gather unit reads from its bytes, for list `k` of a firing's plan (R59). -/
def listOf (f : Firing) (k : Nat) (q : PlanList) (bs : List Byte) : IndexList where
  handle := f.handle
  plan := k
  table := fieldAt bs 0 2
  indices := (List.range (fieldAt bs 4 4)).map fun i => BitVec.ofNat 32 (fieldAt bs (32 + 4 * i) 4)
  route := (f.img.contents.routes[fieldAt bs 8 2]?).getD []
  perBead := fieldAt bs 0xA 2
  destOffset := fieldAt bs 0xC 2
  destStride := fieldAt bs 0xE 2
  firstPos := fieldAt bs 0x10 4
  counter := q.counter

/-- Positions of a list that run-ahead has delivered for the commands of the step: same plan list, same index, same slot in the
same bead (R79). -/
def Firing.filledOf (f : Firing) (st : Step) (l : IndexList) : List Nat :=
  let taken := f.ahead.filter fun a => st.slots.contains (a.slot, a.cid) && decide (a.l.plan = l.plan)
  (List.range l.indices.length).filter fun p =>
    (destOf l p).isSome && taken.any fun a => a.filled.any fun q =>
      decide (indexAt a.l q = indexAt l p ∧ destOf a.l q = destOf l p)

/-- A list joins its unit's lists; a bead all of whose slots are filled already has its handshake at once (R59, R120; log 96). -/
def State.receiveList (s : State) (frame unit : Nat) (f : Firing) (st : Step) (l : IndexList) : State :=
  let g := (s.frame frame).gatherUnit unit
  let x : ListState := ⟨l, g.nextNum, false, 0, none, [], [], f.filledOf st l⟩
  let x := { x with next := if x.position = l.indices.length then l.indices.length else 0 }
  let t := if x.finished then s else s.setGather frame unit { g with lists := g.lists ++ [x], nextNum := g.nextNum + 1 }
  t.forEach ((List.range l.route.length).map fun j => j * l.perBead) fun t p =>
    if x.beadDone p then t.handshake x p else t

/-- INDEX_LIST (R51, R59, R79, R120, R482): the movers build list `l.plan` of a firing's running step from the request blocks of its
batch slots, once, and the gather unit of the list's shard receives it (log 8). -/
def execIndexList (frame unit : Nat) (l : ListDraw) (s : State) : Outcome :=
  within (gatherOk frame unit)
    (s.when (s.up && !(s.frame frame).fenced) fun s =>
      match s.firing l.handle with
      | none => s
      | some f =>
        match f.step, s.planFor f frame unit l.plan with
        | some st, some (q, t) =>
          let slots := match q.slot with
            | some k => [k]
            | none => List.range f.img.batchSlots
          let d := s.drawBlocks f frame q.table (slots.map fun k => s.slotVa f st k 0 false) l.host
          s.when (d.translated && !f.sent.contains l.plan) fun s =>
            let s := s.withSome d.poison fun s fr => (s.countPoison fr).faultStep l.handle
            let s := s.modFiring l.handle fun f => { f with sent := f.sent ++ [l.plan] }
            s.receiveList frame unit f st (listOf f l.plan q (planBytes q false (d.indices.filter (t.desc.routes q.shard))))
        | _, _ => s)

/-! ## Positions that a mover completes (R72) -/

/-- A position held by a mover is settled: delivered, or abandoned. Its handshake follows, and a finished list leaves. -/
def State.settle (s : State) (frame unit : Nat) (l : IndexList) (p : Nat) : State :=
  let g := (s.frame frame).gatherUnit unit
  match g.lists.find? fun x => decide (x.l = l) && x.atMover.contains p with
  | none => s
  | some x =>
    let y := { x with atMover := x.atMover.filter fun q => decide (q ≠ p) }
    (s.setGather frame unit { g with
      lists := (g.lists.map fun z => if z = x then y else z).filter fun z => !z.finished }).handshake y p

/-- The record that a mover delivers once the row can be read. -/
def State.missRecord (s : State) (frame : Nat) (l : IndexList) (p : Nat) : List Byte :=
  match s.rowFor l.handle frame l.table (indexAt l p).toNat with
  | some r => s.rowRecord r (s.entryAt r) (indexAt l p) false
  | none => []

end Sys2Proof.Machine
end

