-- ==== Sys2Proof/Machine/Carry.lean ====
section
/-! DEFINITION. Carry operations: the dispatcher, the carry units' arithmetic, the cold index, forwarding to the primary, the
journal records of applied operations (R80 to R92, R96, R205 to R211). -/

namespace Sys2Proof.Machine

/-! ## Arithmetic (R84 to R86) -/

/-- The format of a delta code (R82). -/
def deltaFmt (c : Nat) : Fmt :=
  if c = 0 then .fp fp32F else if c = 1 then .fp bf16F else if c = 2 then .fp e4m3F else .fp e5m2F

/-- The deltas of an operation as values. -/
def opDeltas (op : CarryOp) : List Val := op.deltas.map fun w => decodeFmt (deltaFmt op.deltaFmt.toNat) w.toNat

/-- The element codes of a block. -/
def blockCodes (cls : Nat) (bs : List Byte) : List Nat :=
  (List.range 32).map fun j => leNat bs / 2 ^ (j * clsBits cls) % 2 ^ clsBits cls

/-- A block from its element codes. -/
def packCodes (cls : Nat) (codes : List Nat) : List Byte :=
  leBytes (blockBytes cls) (codes.foldr (fun c n => c + n * 2 ^ clsBits cls) 0)

/-- One block after an ADD (R84): its new glaze byte, its bytes, and whether CARRY_SAT counts it (R85, R207). -/
def addBlock (cls glaze rs : Nat) (factor : Val) (bs : List Byte) (deltas : List Val) : Nat × List Byte × Bool :=
  let s := combined glaze rs
  let vs := (List.zip (blockCodes cls bs) deltas).map fun p =>
    ((dequantise (clsFmt cls) p.1 s).add (factor.mul p.2).round32).round32
  let q := quantBlock (clsFmt cls) glaze rs vs
  (q.1, packCodes cls q.2.1, q.2.2.1 || q.2.2.2)

/-- Burst `i` of a row after an ADD on the span: its side and data bytes, and how many blocks CARRY_SAT counts. -/
def State.addBurst (s : State) (u : Unit64) (cls rs first count i : Nat) (factor : Val) (deltas : List Val) :
    List Byte × List Byte × Nat :=
  let n := perBurst cls
  let b : Unit64 := { u with num := u.num + i }
  (List.range n).foldl (init := (s.sideBytes b, s.devBytes b.place 64, 0)) fun acc j =>
    let k := i * n + j
    if first ≤ k ∧ k < first + count then
      let size := blockBytes cls
      let r := addBlock cls ((acc.1.getD j 0).toNat) rs factor ((acc.2.1.drop (j * size)).take size)
        ((deltas.drop ((k - first) * 32)).take 32)
      (acc.1.set j (BitVec.ofNat 8 r.1), acc.2.1.take (j * size) ++ r.2.1 ++ acc.2.1.drop (j * size + size),
        acc.2.2 + bit r.2.2)
    else acc

/-- ADD on a slot, burst by burst (R84, R85). -/
def State.addSpan (s : State) (f : Nat) (e : DirEntry) (op : CarryOp) (factor : Val) : State :=
  let first := op.firstBlock.toNat
  let count := op.blockCount.toNat
  s.forEach (spanBursts e.cls first count) fun t i =>
    let r := t.addBurst (e.unit f) e.cls e.scale first count i factor (opDeltas op)
    (t.writeBurst ⟨f, e.tier, e.slot + i⟩ r.2.1 r.1).modCounters f fun c =>
      { c with carrySat := sat32 (c.carrySat + r.2.2) }

/-- The square sum of an ADD_SCALED's deltas, in element order. -/
def squareSum (ds : List Val) : Val := ds.foldl (fun a d => (a.add (d.mul d).round32).round32) .zero

/-- The accumulator after an ADD_SCALED over a row of `n` elements. -/
def newAcc (acc : Word32) (ds : List Val) (n : Nat) : Val :=
  ((val32 acc).add ((squareSum ds).quot32 (Val.ofInt n).round32)).round32

/-- The factor that an ADD_SCALED applies: −factor ÷ √(acc + ε). -/
def scaledFactor (acc : Val) (op : CarryOp) : Val :=
  (val32 op.factor).flip.quot32 ((acc.add (val32 op.epsilon)).round32).sqrt32

/-- An operation applied to the slot that an entry names (R84, R86). -/
def State.applyOp (s : State) (t : Table) (f : Nat) (e : DirEntry) (op : CarryOp) (src : CarrySource) : State :=
  if op.opcode = 1 then s.addSpan f e op (val32 op.factor)
  else match s.accPlace t f op src with
  | none => s
  | some p =>
    let acc := newAcc (BitVec.ofNat 32 (s.devNat p 4)) (opDeltas op) t.desc.rowElements
    (s.writeDev p (leBytes 4 acc.code32.toNat)).addSpan f e op (scaledFactor acc op)

/-- Carry units of an operation: 2 ns, 5 or 6 ns for each burst of the span, 6 ns for ADD_SCALED, in units of 250 ps (R90). -/
def carryUnits (t : Tier) (cls : Nat) (op : CarryOp) : Nat :=
  8 + (spanBursts cls op.firstBlock.toNat op.blockCount.toNat).length * (match t with
    | .h => 20
    | .l => 24) + (if op.opcode = 2 then 24 else 0)

/-! ## Validity (R82, R83, R206) -/

/-- A positive finite FP32 value. -/
def positiveFinite (w : Word32) : Bool :=
  match val32 w with
  | .fin n m _ => !n && decide (m ≠ 0)
  | _ => false

/-- The fields of an operation on a table of `blocks` blocks are in their ranges. -/
def opFieldsOk (op : CarryOp) (blocks : Nat) : Bool :=
  let first := op.firstBlock.toNat
  let count := op.blockCount.toNat
  decide (op.deltaFmt.toNat ≤ 3 ∧ op.reserved = 0 ∧ first < blocks ∧ 1 ≤ count ∧ first + count ≤ blocks ∧
    op.deltas.length = count * 32) &&
  (if op.opcode = 1 then decide (op.epsilon = 0 ∧ op.accAddr = 0)
   else decide (op.opcode = 2 ∧ first = 0 ∧ count = blocks) && positiveFinite op.epsilon)

/-- Whether a source is a step of a firing. -/
def carryFrom (src : CarrySource) (h : Nat) : Bool :=
  match src with
  | .step _ k => decide (k = h)
  | .window _ _ => false
  | .command _ => false
  | .kiln => false
  | .forwarded _ => false

/-- The partition that issues an operation, if a firing or a command does (R83, R347). -/
def State.sourcePart (s : State) : CarrySource → Option Nat
  | .step _ h => (s.firing h).map fun f => f.part
  | .command c => (s.cmd c).map fun x => x.port
  | .window _ _ => none
  | .kiln => none
  | .forwarded _ => none

/-- A source may name the tables of a partition. -/
def State.mayName (s : State) (src : CarrySource) (owner : Nat) : Bool :=
  match s.sourcePart src with
  | some n => decide (n = owner)
  | none => true

/-- Charge an operation's units on frame `f` to the tally that R352 names for its source; a window's are charged on the frame
that received it, the kiln's and the twin's to none. -/
def State.chargeCarry (s : State) (src : CarrySource) (f units : Nat) : Option State :=
  match src with
  | .step _ h => (match s.firing h with
    | some x => s.chargeFiring x f 1 units
    | none => some s)
  | .command c => (match s.cmd c with
    | some x => s.chargePart x.port f 1 units
    | none => some s)
  | .window w g => (match Sparse.find s.fabric.windows w with
    | some x => s.chargeWindow x.part g units
    | none => some s)
  | .kiln => some s
  | .forwarded _ => some s

/-- An operation of a source waits at the period boundary (R353). -/
def State.holdCarry (s : State) (src : CarrySource) (f : Nat) : State :=
  match src with
  | .window w g => (match Sparse.find s.fabric.windows w with
    | some x => s.holdTally x.part g 1
    | none => s)
  | _ => match s.sourcePart src with
    | some n => s.holdTally n f 1
    | none => s

/-- An operation that could not go on waits for units, if it is units that it lacks (R353). -/
def State.waitCharge (s : State) (src : CarrySource) (f units : Nat) : State :=
  if (s.chargeCarry src f units).isSome then s else s.holdCarry src f

/-! ## What the source learns (R89, R103, R301) -/

/-- A CARRY_SUBMIT whose list is read whole and whose operations are all settled completes (R89). -/
def State.carryDone (s : State) (c : Nat) : State :=
  match s.cmd c with
  | some x =>
    if x.d.opcode = 0x08 ∧ x.outstanding = 0 ∧ (x.phase = .busy ∨ x.phase = .draining) then
      let result := BitVec.ofNat 64 (x.applied % 2 ^ 32 + x.discarded % 2 ^ 32 * 2 ^ 32)
      if x.phase = .draining then s.timedOut c 3
      else if x.faulted then s.completeFaulted c
      else s.completeOk c result
    else s
  | none => s

/-- The highest forward number up to which every operation is settled, and the numbers settled above it (R103; log 102). -/
def ackUpTo (n : Nat) (done : List Nat) : Nat → Nat × List Nat
  | 0 => (n, done)
  | k + 1 => if done.contains (n + 1) then ackUpTo (n + 1) (done.filter (· ≠ n + 1)) k else (n, done)

/-- An operation is settled: applied (or recorded cold), or discarded. A forwarded one is acknowledged once every lower number is
settled too. -/
def State.settleOp (s : State) (f : Nat) (src : CarrySource) (applied : Bool) : State :=
  match src with
  | .command c => (s.modCmd c fun x =>
      { x with
        outstanding := x.outstanding - 1,
        applied := x.applied + bit applied,
        discarded := x.discarded + bit (!applied) }).carryDone c
  | .forwarded n =>
    let r := ackUpTo s.twin.fwdApplied (s.twin.fwdDone ++ [n]) (s.twin.fwdDone.length + 1)
    { s with twin := { s.twin with
      fwdApplied := r.1, fwdDone := r.2,
      sent := if r.1 = s.twin.fwdApplied then s.twin.sent else s.twin.sent ++ [(f, 0x05, [r.1])] } }
  | _ => s

/-- CARRY_DISCARD (R83): the operation is discarded whole, and CARRY_BAD_OPS rises. -/
def State.discardOp (s : State) (f : Nat) (src : CarrySource) : State :=
  (s.modCounters f fun c => { c with badOps := inc32 c.badOps }).settleOp f src false

/-! ## Dispatch (R81, R83, R91, R96) -/

/-- COLD_INDEX_RECORD (R91): recorded in the frame's cold index and journaled with COLD, or dropped where it is full. -/
def State.recordCold (s : State) (f : Nat) (op : CarryOp) (src : CarrySource) : State :=
  if (s.frame f).cold.length < 1048576 then
    (((s.modFrame f fun x => { x with cold := x.cold ++ [⟨op, src⟩] }).journalAppend 0 f op.table.toNat op.row.toNat true
      (.carry op))).settleOp f src true
  else (s.modCounters f fun c => { c with coldDrops := inc32 c.coldDrops }).settleOp f src false

/-- The rod whose channel 3 holds a carry miss of a source: a training, maintenance or recovery firing's (R91). -/
def State.missBead (s : State) (src : CarrySource) : Option BeadId :=
  match src with
  | .step b h => (match s.firing h with
    | some f => if faultMode f.img.mode then some b else none
    | none => none)
  | _ => none

/-- An operation on a row that cannot be updated now: a carry-miss fault, or the cold index (R91). It occupies the dispatcher
alone, 8 units (R90). None where it has to wait. -/
def State.missOp (s : State) (f : Nat) (op : CarryOp) (src : CarrySource) : Option State :=
  match s.chargeCarry src f 8 with
  | none => none
  | some s =>
    match src, s.missBead src with
    | .step _ h, some b =>
      if 16 ≤ (s.chan b.rod 3).reqs.length then none
      else some (s.pushReq b.rod 3 ⟨h, b, .carry f op src, 0, false, false, Known.none⟩)
    | _, _ => some (s.recordCold f op src)

/-- The carry unit that serves a slot: that of the memory controller of its 64 KiB interleave, 8 in tier H, 4 in tier L
(R80). -/
def carryUnitOf (e : DirEntry) : Nat :=
  match e.tier with
  | .h => e.slot * 64 / 65536 % 8
  | .l => 8 + e.slot * 64 / 65536 % 4

/-- Operations waiting in a carry unit. -/
def Frame.carryUnit (x : Frame) (u : Nat) : List CarryJob := Sparse.read [] x.carry u

/-- Replace a carry unit's operations. -/
def State.setCarry (s : State) (f u : Nat) (l : List CarryJob) : State :=
  s.modFrame f fun x => { x with carry := Sparse.write [] x.carry u l }

/-- A width class from its code. -/
def clsOf (n : Nat) : WidthClass := if n = 0 then .c16 else if n = 1 then .c8 else .c4

/-- Pass an operation to the carry unit that serves its slot (R81). -/
def State.enqueueOp (s : State) (f : Nat) (e : DirEntry) (op : CarryOp) (src : CarrySource) : State :=
  let u := carryUnitOf e
  s.setCarry f u ((s.frame f).carryUnit u ++ [⟨op, src, e.tier, clsOf e.cls, e.slot, BitVec.ofNat 16 e.scale⟩])

/-- An operation on a row of a shard of this frame. -/
def State.dispatchRow (s : State) (f : Nat) (r : RowAt) (op : CarryOp) (src : CarrySource) : Option State :=
  if s.entryBad r then (s.countPoison f).missOp f op src
  else
    let e := s.entryAt r
    if e.cls = 3 then (s.chargeCarry src f 8).map fun t => t.discardOp f src
    else if !e.present ∨ r.table.desc.badEntry e then s.missOp f op src
    else if (rowScaleVal e.scale).isZero then (s.chargeCarry src f 8).map fun t => t.discardOp f src
    else if s.spanBad (e.unit f) e.cls op ∨ s.accBad f op src then (s.countPoison f).missOp f op src
    else some (s.enqueueOp f e op src)

/-- Forward an operation to the primary over the twin lanes of the frame (R96). -/
def State.forwardOp (s : State) (f : Nat) (op : CarryOp) (src : CarrySource) : State :=
  { s with twin := { s.twin with
      nextFwd := s.twin.nextFwd + 1,
      fwds := s.twin.fwds ++ [(s.twin.nextFwd, f, op, src)],
      sent := s.twin.sent ++ [(f, 0x04, [s.twin.nextFwd])] } }

/-- Whether the fields of an operation, its table and its source pass R83. -/
def State.opOk (s : State) (t : Table) (f : Nat) (op : CarryOp) (src : CarrySource) : Bool :=
  opFieldsOk op t.desc.blocks && s.mayName src t.owner && (decide (op.opcode = 1) || (s.accPlace t f op src).isSome)

/-- A primary that hands over has stopped taking carry operations, at a quiescent point of every frame (R102). -/
def State.carryStopped (s : State) : Bool :=
  s.twin.handover.isSome && (List.range 20).all fun f => (s.frame f).fenced || !(s.frame f).actions.contains .handoverStop

/-- Units of an operation that goes to the primary: those of its row as the secondary's own copy shows it, or the resolution alone
(R90; log 77). -/
def State.forwardUnits (s : State) (r : RowAt) (op : CarryOp) : Nat :=
  let e := s.entryAt r
  if !s.entryBad r ∧ e.present ∧ !r.table.desc.badEntry e then carryUnits e.tier e.cls op else 8

/-- An operation that the twin forwarded. -/
def isForwarded : CarrySource → Bool
  | .forwarded _ => true
  | _ => false

/-- The secondary becomes primary at the next quiescent point of some frame (R101, R102). -/
def State.promoting (s : State) : Bool := (List.range 20).any fun f => (s.frame f).actions.contains .promoteTwin

/-- CARRY_DISPATCH (R81, R83, R91, R96): an operation that entered the carry path at frame `f` is discarded, forwarded,
recorded, faulted, or passed to the carry unit of its row, on the frame of its shard. None where it has to wait. -/
def State.dispatch (s : State) (f : Nat) (op : CarryOp) (src : CarrySource) : Option State :=
  match s.srcAny src op.table.toNat with
  | none => (s.chargeCarry src f 8).map fun t => t.discardOp f src
  | some t =>
    match t.rowAt op.row.toNat with
    | none => (s.chargeCarry src f 8).map fun t => t.discardOp f src
    | some r =>
      let sf := r.shard.frame
      if !s.opOk t sf op src then (s.chargeCarry src sf 8).map fun t => t.discardOp sf src
      else if isForwarded src ∧ s.promoting then none
      else if s.twin.role = 2 ∨ s.twin.role = 3 then
        (s.chargeCarry src sf (s.forwardUnits r op)).map fun t => t.forwardOp sf op src
      else if (s.frame sf).fenced ∨ (s.twin.role = 0 ∧ s.twin.paired) ∨ s.carryStopped then none
      else s.dispatchRow sf r op src

/-- A firing's step may issue carry operations from a bead: a thread program of the bead does, and with a pass split the backward
pass runs (R81, R194). -/
def Firing.issuesCarry (f : Firing) (st : Step) (b : BeadId) : Bool :=
  f.img.contents.threads.any fun t => decide (t.bead = b) && t.carryFrom.isSome && (t.passSplit.isNone || decide (1 ≤ st.pass))

/-- The source of an operation that enters the carry path at frame `f` exists there (R81, R83): a bead of the frame that a running
step has issue carry operations, a window write that the frame received, a command at its port frame. -/
def State.sourceOk (s : State) (f : Nat) (src : CarrySource) : Bool :=
  match src with
  | .step b h => (match s.firing h with
    | some x => decide (b.frame = f) && x.img.carryFlag && x.rods.contains b.rod && x.step.any fun st => x.issuesCarry st b
    | none => false)
  | .command c => (s.cmd c).any fun x => decide (s.portFrame x.port = f)
  | .window w g => (Sparse.find s.fabric.windows w).isSome && decide (g = f)
  | .kiln => true
  | .forwarded _ => decide (s.twin.role = 1)

/-- The frame whose carry unit and tally an operation that entered at `f` uses: that of its shard, if it names one (R81, R83). -/
def State.opFrame (s : State) (f : Nat) (op : CarryOp) (src : CarrySource) : Nat :=
  match s.srcAny src op.table.toNat with
  | some t => (match t.rowAt op.row.toNat with
    | some r => r.shard.frame
    | none => f)
  | none => f

/-- An operation is kept until its dispatcher accepts it (R102, R353; log 86). -/
def State.holdOp (s : State) (f : Nat) (op : CarryOp) (src : CarrySource) (reply : Option Txn) : State :=
  let t := s.waitCharge src (s.opFrame f op src) 8
  { t with heldOps := t.heldOps ++ [⟨f, op, src, reply⟩] }

/-- Answer a request, on VC 1 (R368, R378). -/
def State.respond (s : State) (t : Txn) (status : BitVec 8) (data : List Byte) : State :=
  match s.routeLink t.src 1 with
  | some k => s.sendTxn k 3 { t with
      status := status, dst := t.src, src := s.fabric.moduleId, length := data.length, tcrcGood := true, data := data }
  | none => s

/-- An operation goes through its dispatcher, and its request is answered, or it is kept. -/
def State.takeOp (s : State) (f : Nat) (op : CarryOp) (src : CarrySource) (reply : Option Txn) : State :=
  match s.dispatch f op src with
  | some t => t.withSome reply fun t r => t.respond r 0 []
  | none => s.holdOp f op src reply

/-- The operations that were kept try again, oldest first; one that must wait on is kept (R102, R353). -/
def State.retryOps (s : State) : State :=
  ({ s with heldOps := [] } : State).forEach s.heldOps fun t h => t.takeOp h.frame h.op h.src h.reply

/-- The burst that the dispatcher reads for an operation: that of its row's directory entry. -/
def State.dispatchReads (s : State) (f : Nat) (op : CarryOp) (src : CarrySource) : List Unit64 :=
  ((s.opReads (s.opFrame f op src) op src).take 1)

/-- CARRY_DISPATCH; `found` are errors that the dispatcher's read finds. -/
def execCarryDispatch (frame : Nat) (op : CarryOp) (src : CarrySource) (s : State) (found : List BurstFound := []) : Outcome :=
  within (frameOk frame)
    (s.when (s.up && s.sourceOk frame src) fun s =>
      let s1 := match src with
        | .command c => s.modCmd c fun x => { x with outstanding := x.outstanding + 1 }
        | _ => s
      (s1.findErrors (s1.dispatchReads frame op src) found).takeOp frame op src none)

/-! ## Carry units (R87, R90) -/

/-- The oldest operation of a carry unit is applied, journaled and settled; where a burst that it needs has been poisoned
meanwhile it goes the way of a row with PRESENT 0 (R241). -/
def State.applyJob (s : State) (f u : Nat) (j : CarryJob) (rest : List CarryJob) : State :=
  match s.srcRow j.src f j.op.table.toNat j.op.row.toNat with
  | none => (s.setCarry f u rest).discardOp f j.src
  | some r =>
    let e := s.entryAt r
    if s.entryBad r ∨ s.spanBad (e.unit f) e.cls j.op ∨ s.accBad f j.op j.src then
      match ((s.setCarry f u rest).countPoison f).missOp f j.op j.src with
      | some t => t
      | none => s.waitCharge j.src f 8
    else match s.chargeCarry j.src f (carryUnits e.tier e.cls j.op) with
    | none => s.holdCarry j.src f
    | some s =>
      ((((s.setCarry f u rest).applyOp r.table f e j.op j.src).journalAppend (s.seqOf f) f j.op.table.toNat j.op.row.toNat false
        (.carry j.op))).settleOp f j.src true

/-- A carry unit serves its oldest operation if it has the opcode. -/
def State.serveCarry (s : State) (f u op : Nat) (found : List BurstFound) : State :=
  match (s.frame f).carryUnit u with
  | [] => s
  | j :: rest => s.when (decide (j.op.opcode.toNat = op) && !(s.frame f).fenced) fun s =>
    (s.findErrors (s.opReads f j.op j.src) found).applyJob f u j rest

/-- ADD (R84, R85); `found` are errors that its reads find. -/
def execAdd (frame unit : Nat) (s : State) (found : List BurstFound := []) : Outcome :=
  within (carryOk frame unit) (s.when s.up fun s => s.serveCarry frame unit 1 found)

/-- ADD_SCALED (R86); `found` are errors that its reads find. -/
def execAddScaled (frame unit : Nat) (s : State) (found : List BurstFound := []) : Outcome :=
  within (carryOk frame unit) (s.when s.up fun s => s.serveCarry frame unit 2 found)

/-- The cold-index operations of a row are applied in their recorded order to the slot that a new entry names, before the
switch; the kiln is charged nothing, and one that fails the row scale test is discarded (R83, R91). From one whose accumulator lies
on a poisoned burst on they stay in the index until it is restored (R241). -/
def State.applyCold (s : State) (f : Nat) (r : RowAt) (table row : Nat) (e : DirEntry) : State :=
  let mine := fun c : ColdEntry => decide (c.op.table.toNat = table ∧ c.op.row.toNat = row)
  let all := (s.frame f).cold.filter mine
  let ready := all.takeWhile fun c => !s.accBad f c.op c.src
  let t := s.forEach ready fun t c =>
    if (rowScaleVal e.scale).isZero then t.modCounters f fun c => { c with badOps := inc32 c.badOps }
    else t.applyOp r.table f e c.op c.src
  t.modFrame f fun x => { x with cold := (x.cold.filter fun c => !mine c) ++ all.drop ready.length }

/-- The operations of a row that wait in carry units follow the row to the unit of its new slot, in order (R92). -/
def State.followRow (s : State) (f table row : Nat) (e : DirEntry) : State :=
  let mine := fun j : CarryJob => decide (j.op.table.toNat = table ∧ j.op.row.toNat = row)
  let jobs := (List.range 12).flatMap fun u => ((s.frame f).carryUnit u).filter mine
  let t := s.forEach (List.range 12) fun t u => t.setCarry f u (((t.frame f).carryUnit u).filter fun j => !mine j)
  t.forEach jobs fun t j => t.enqueueOp f e j.op j.src

end Sys2Proof.Machine
end

