-- ==== Sys2Proof/Machine/Movers.lean ====
section
/-! DEFINITION. MV and MV_COMPLETE, and how waiters resume or abandon when a fault is resolved or aborted (R124 to R127, R276,
R280). -/

namespace Sys2Proof.Machine

/-! ## MV (R125, R126) -/

/-- The place that a register and a space name; a space-3 bead outside the firing is no place (R125; log 21). -/
def placeIn (f : Firing) (b : BeadId) (space : Nat) (w : Word64) : MvPlace :=
  match space with
  | 0 => .scratch b (bits w.toNat 13 0)
  | 1 => .pool b.rod (bits w.toNat 15 0)
  | 2 => .device (w.toNat % 2 ^ 52)
  | _ =>
    let p := space3 w
    if p.1.ok && f.rods.contains p.1.rod then .scratch p.1 p.2 else .nothing

/-- A range lies inside the regions that PLACEMENT lists, each of which carries PIN (R36 check 6, R126). -/
def insideRegions (rs : List Region) : Nat → Nat → Nat → Bool
  | _, _, 0 => true
  | 0, _, _ => false
  | k + 1, va, n =>
    match rs.find? fun r => decide (r.va ≤ va ∧ va < r.va + r.bytes) with
    | some r => insideRegions rs k (r.va + r.bytes) (n - (r.va + r.bytes - va))
    | none => false

/-- The check of a space-2 range (R126). -/
def Firing.pinOk (f : Firing) (p : MvPlace) (n : Nat) : Bool :=
  match p with
  | .device va => insideRegions f.img.contents.placement (f.img.contents.placement.length + 1) va n
  | _ => true

/-- An MV on channels 0 to 2 (R125, R126, R139). -/
def State.mvLocal (s : State) (f : Firing) (b : BeadId) (c : Nat) (x : Ctx) (m : MvFields) : State :=
  let len := (x.reg m.len).toNat
  let src := placeIn f b m.srcSpace.toNat (x.reg m.src)
  let dst := placeIn f b m.dstSpace.toNat (x.reg m.dst)
  let ok := f.pinOk src len && f.pinOk dst len
  let q : MvReq := ⟨f.handle, b, .copy [⟨src, dst, len, none⟩], m.evt.toNat, m.evtEn, !ok, Known.none⟩
  let t := (s.modBead b fun y => ({ y with mvs := y.mvs + 1 } : Bead).setCtx c x.next).pushReq b.rod m.channel.toNat q
  if ok then t else t.pinError b

/-- A location of a mover program as a place, with the batch slot that it names; none for an empty slot. -/
def State.locPlace (s : State) (f : Firing) (st : Step) : Loc → Option (MvPlace × Option Nat)
  | .scratch b off => some (.scratch b off, none)
  | .pool r off => some (.pool r off, none)
  | .device va => some (.device va, none)
  | .request k off => (s.slotVa f st k off false).map fun va => (.device va, some k)
  | .output k off => (s.slotVa f st k off true).map fun va => (.device va, some k)

/-- A transfer of a mover program as a copy. -/
def State.transferCopy (s : State) (f : Firing) (st : Step) (t : Transfer) : Option MvCopy :=
  match s.locPlace f st t.src, s.locPlace f st t.dst with
  | some a, some b => some ⟨a.1, b.1, t.len, if b.2.isSome then b.2 else a.2⟩
  | _, _ => none

/-- The copies of a mover program entry; one that names an empty batch slot moves nothing (R127). -/
def State.entryCopies (s : State) (f : Firing) (st : Step) (r : RodId) (prog : Nat) : List MvCopy :=
  match f.img.contents.moverProgs.find? fun e => decide (e.rod = r ∧ e.prog = prog) with
  | some e => (e.transfers.mapM (s.transferCopy f st)).getD []
  | none => []

/-- MV: a request on a channel; an instruction that would exceed a limit holds its context (R112, R139). -/
def execMv (b : BeadId) (c : Nat) (m : MvFields) (s : State) : Outcome :=
  within (ctxOk b c) (s.issue b c (.mv b c m) fun s x =>
    match s.stepOf b with
    | none => s
    | some (f, st) =>
      if m.channel = 3 then
        (s.setCtx b c x.next).pushReq b.rod 3
          ⟨f.handle, b, .copy (s.entryCopies f st b.rod m.prog.toNat), m.evt.toNat, m.evtEn, false, Known.none⟩
      else s.mvLocal f b c x m)

/-! ## MV_COMPLETE (R124, R127, R241, R256) -/

/-- Answers of other modules that a rod's mover still waits for. -/
def State.awaits (s : State) (r : RodId) : Bool := s.fabric.outstanding.any fun o => decide (o.rod = r)

/-- Transfers of pieces in device memory and in windows: parts of up to 4 KiB within a page frame, each of which holds one of the
frame's transfer tags (R128, R233). -/
def tagsOf (ps : List (Reach × Nat × Nat)) : Nat :=
  ps.foldl (fun n q => match q.1 with
    | .dram p _ => n + (txnParts p.off q.2.2).length
    | .remote _ _ off => n + (txnParts off q.2.2).length
    | _ => n) 0

/-- What a mover moves of a copy at once: all of it, or its first 56 KiB where the whole needs more than the 32 transfer tags
that it may hold (R128, R139). -/
def State.atOnce (s : State) (a : Access) (c : MvCopy) : Nat :=
  if tagsOf (s.reaches a c.src c.len false) + tagsOf (s.reaches a c.dst c.len true) ≤ 32 then c.len else min c.len 57344

/-- What is left of copies after the first `n` bytes of the first. -/
def afterBytes (c : MvCopy) (n : Nat) (cs : List MvCopy) : List MvCopy :=
  if n < c.len then { c with src := shiftPlace n c.src, dst := shiftPlace n c.dst, len := c.len - n } :: cs else cs

/-- Perform copies in order until one faults or waits: the copies left, and the state. Every page of a copy is looked up before any
of it moves. `fuel` bounds the parts that are moved. -/
def State.runCopies (s : State) (r : RodId) (f : Firing) (st : Step) (a : Access) (found : List BurstFound) : Nat → List MvCopy → List Byte → List MvCopy × State
  | _, [], _ => ([], s)
  | 0, c :: cs, _ => (c :: cs, s)
  | k + 1, c :: cs, host =>
    if (s.copyFault a c).isSome then (c :: cs, s)
    else
      let n := s.atOnce a c
      match (s.fillCopy a c).runCopy r f st a { c with len := n } host found with
      | .wait t => (c :: cs, t)
      | .done t host' =>
        if t.awaits r then (afterBytes c n cs, t) else t.runCopies r f st a found k (afterBytes c n cs) host'

/-- Parts that copies can have. -/
def partsOf (ts : List MvCopy) : Nat := (ts.map fun c => c.len / 57344 + 1).sum

/-- What copies have written into mirrored ranges between two states: for each frame whose stream went on, its next SEQ; and the
regions that they write and that are dirty (R263). -/
def State.wroteSince (s t : State) (a : Access) (ts : List MvCopy) : Known where
  seqs := (List.range 20).filterMap fun f =>
    let n := (t.frame f).stream.nextSeq
    if n = (s.frame f).stream.nextSeq then none else some (f, n)
  regions := ((ts.flatMap fun c => s.reaches a c.dst c.len true).filterMap fun q => match q.1 with
    | .dram p _ =>
      let g := p.burst.pageFrame
      if (t.frame g.frame).stream.dirty.contains g then some (g, (t.frame g.frame).stream.nextSeq) else none
    | _ => none).eraseDups

/-- The oldest request of a channel has also written what an answer of another module brought it (R256). -/
def State.noteWrote (s : State) (r : RodId) (c : Nat) (k : Known) : State :=
  let ch := s.chan r c
  match ch.reqs with
  | [] => s
  | q :: qs => s.setChan r c { ch with reqs := { q with wrote := q.wrote.join k } :: qs }

/-- A request is complete: its event, a release of what it wrote, and its place in the channel (R118, R124, R256). -/
def State.endReq (s : State) (r : RodId) (c : Nat) (q : MvReq) : State :=
  let t := s.when q.evtEn fun s => s.bumpRelease q.bead q.evt 4 q.bead q.wrote
  let t := if c < 3 then t.modBead q.bead fun x => { x with mvs := x.mvs - 1 } else t
  t.popReq r c

/-- Keep what is left of the oldest request, which walks again on channel 3. -/
def State.keepReq (s : State) (r : RodId) (c : Nat) (q : MvReq) (left : List MvCopy) : State :=
  let ch := s.chan r c
  let t := s.setChan r c { ch with reqs := { q with kind := .copy left } :: ch.reqs.drop 1 }
  if c = 3 then t.probe r else t

/-- Pin table alone, for channels 0 to 2. -/
def channelLocal (r : RodId) (f : Firing) : Access := ⟨r.frame, f.part, f.pins, false⟩

/-- The oldest request of a channel goes as far as it can. -/
def State.runReq (s : State) (r : RodId) (c : Nat) (f : Firing) (st : Step) (q : MvReq) (host : List Byte)
    (found : List BurstFound) : State :=
  match q.kind with
  | .copy ts =>
    let a := if c = 3 then channel3 r f else channelLocal r f
    let live := liveCopies st ts
    let res := s.runCopies r f st a found (partsOf live) live host
    let q := { q with wrote := q.wrote.join (s.wroteSince res.2 a live) }
    if res.1 = [] ∧ !res.2.awaits r then res.2.endReq r c q else res.2.keepReq r c q res.1
  | .gather fr u l p =>
    let s := s.findErrors (s.rowReads l.handle fr l.table (indexAt l p).toNat) found
    if !s.rowReady l.handle fr l.table (indexAt l p).toNat then s.probe r
    else
      let bs := s.missRecord fr l p
      match s.chargeFiring f r.frame 5 ((bs.length + 63) / 64) with
      | none => s.holdTally f.part r.frame 5
      | some t => ((t.deliver l p bs).settle fr u l p).popReq r c
  | .carry fr op src =>
    let s := s.findErrors (s.opReads fr op src) found
    if !s.opReady fr op src then s.probe r
    else match s.dispatch fr op src with
    | some t => t.popReq r c
    | none => s.waitCharge src (s.opFrame fr op src) 8

/-- A request that moves nothing ends: an aborted position is settled undelivered (R126, R280). -/
def State.endDead (s : State) (r : RodId) (c : Nat) (q : MvReq) : State :=
  match q.kind with
  | .copy _ => s.endReq r c q
  | .gather fr u l p => (s.settle fr u l p).popReq r c
  | .carry _ _ _ => s.popReq r c

/-- MV_COMPLETE: the oldest request of a channel is performed; `hostData` is what host memory answers to its reads, `found` the
errors that they find. -/
def execMvComplete (r : RodId) (channel : Nat) (hostData : List Byte) (s : State) (found : List BurstFound := []) : Outcome :=
  within (r.ok && decide (channel < 4)) (s.when s.up fun s =>
    let ch := s.chan r channel
    match ch.reqs with
    | [] => s
    | q :: _ =>
      if ch.stalled then s
      else if q.dead then s.endDead r channel q
      else match s.firing q.handle with
      | none => s
      | some f =>
        match f.step with
        | none => s
        | some st => s.when (!(decide (channel = 3) && s.awaits r)) fun s => s.runReq r channel f st q hostData found)

/-! ## Waiters (R280) -/

/-- A channel resumes: a carry operation is dispatched again at once, anything else walks again. -/
def State.resumeChannel (s : State) (r : RodId) : State :=
  let s := s.setChan r 3 { (s.chan r 3) with stalled := false }
  match (s.chan r 3).reqs with
  | [] => s
  | q :: _ =>
    match q.kind with
    | .carry fr op src =>
      if s.opReady fr op src then
        (match s.dispatch fr op src with
        | some t => t.popReq r 3
        | none => s)
      else s.probe r
    | _ => s.probe r

/-- A waiter resumes. -/
def State.wakeWaiter (s : State) (w : Waiter) : State :=
  match w with
  | .channel r _ => s.resumeChannel r
  | .command _ => s.resumeWaiter w

/-- A command whose fault is aborted: a CARRY_SUBMIT ends FAULTED once what it dispatched is settled, any other completes
FAULTED (R280, R481). -/
def State.abortCmd (s : State) (c : Nat) : State :=
  match s.cmd c with
  | some x =>
    if x.d.opcode = 0x08 then (s.modCmd c fun x => { x with phase := .busy, faulted := true }).carryDone c
    else s.completeFaulted c
  | none => s

/-- A waiter abandons its transfer; a copy's request goes on with its next transfer. -/
def State.dropWaiter (s : State) (w : Waiter) : State :=
  match w with
  | .channel r _ => (s.abortWaiter w).probe r
  | .command c => s.abortCmd c

/-- A fault entry is resolved: it retires, and its waiters resume together, in the order in which they faulted. -/
def State.resolveEntry (s : State) (n : Nat) (e : FaultEntry) : State :=
  (s.retireFault n e.id).forEach e.waiters State.wakeWaiter

/-- A fault entry is aborted: it retires, and its waiters abandon their transfers. -/
def State.abortEntry (s : State) (n : Nat) (e : FaultEntry) : State :=
  (s.retireFault n e.id).forEach e.waiters State.dropWaiter

/-- An open entry of partition `n`. -/
def State.faultEntry (s : State) (n id : Nat) : Option FaultEntry :=
  (s.part n).faults.entries.find? fun e => decide (e.id = id)

/-- The table and row of a miss fault's entry. -/
def FaultEntry.row (e : FaultEntry) : Nat × Nat := (bits e.addr.toNat 47 32, bits e.addr.toNat 31 0)

end Sys2Proof.Machine
end

