-- ==== Sys2Proof/Machine/Program.lean ====
section
/-! DEFINITION. The part of admission check 1 that reads step programs: instructions, branches, loops, chains, splits (R116,
R153, R161, R167, R168, R187, R192, R194, R212, R255, R419). -/

namespace Sys2Proof.Machine

/-! ## Control flow (R116, R117) -/

/-- The body length and the count of a LOOP. -/
def loopOf : BeadInstr → Option (Nat × Nat)
  | .ctrl op _ _ _ imm => if op = 0x18 then some (immBits imm 11 0, immBits imm 27 12) else none
  | _ => none

/-- How far a branch skips. -/
def skipOf : BeadInstr → Option Nat
  | .ctrl op _ _ _ imm => if 0x10 ≤ op ∧ op ≤ 0x12 then some (immBits imm 11 0) else none
  | _ => none

/-- An END. -/
def isEnd : BeadInstr → Bool
  | .ctrl op _ _ _ _ => decide (op = 0x1F)
  | _ => false

/-- Instructions with their indices. -/
def indexed (p : List BeadInstr) : List (Nat × BeadInstr) := List.zip (List.range p.length) p

/-- First and last index of each loop body. -/
def bodies (p : List BeadInstr) : List (Nat × Nat) :=
  (indexed p).filterMap fun q => (loopOf q.2).map fun l => (q.1 + 1, q.1 + l.1)

/-- Bodies that an index lies in. -/
def bodiesAt (p : List BeadInstr) (i : Nat) : List (Nat × Nat) := (bodies p).filter fun b => decide (b.1 ≤ i ∧ i ≤ b.2)

/-- Where control goes after an instruction, forward. -/
def forward (p : List BeadInstr) (i : Nat) : List Nat :=
  match p[i]? with
  | none => []
  | some x =>
    if isEnd x then []
    else match skipOf x, loopOf x with
    | some k, _ => [i + 1, i + 1 + k]
    | none, some l => if l.2 = 0 then [i + 1 + l.1] else [i + 1]
    | none, none => [i + 1]

/-- The count of the loop whose body starts at an index. -/
def bodyCount (p : List BeadInstr) (first : Nat) : Nat := (((p[first - 1]?).bind loopOf).map fun l => l.2).getD 0

/-- Where control goes after an instruction, with the way back to the start of a body that runs more than once. -/
def flows (p : List BeadInstr) (i : Nat) : List Nat :=
  forward p i ++ ((bodies p).filter fun b => decide (b.2 = i ∧ 2 ≤ bodyCount p b.1)).map fun b => b.1

/-- Indices that control reaches; the length of the program among them means a path without END. -/
def reached (p : List BeadInstr) : List Nat :=
  (List.range p.length).foldl (fun acc i => if acc.contains i then acc ++ forward p i else acc) [0]

/-- Branches go forward and stay in the bodies they lie in (log 39), loops nest at most 4 deep and lie in the program, every
path has an END. -/
def flowOk (p : List BeadInstr) : Bool :=
  ((indexed p).all fun q =>
    (match skipOf q.2 with
    | some k => decide (1 ≤ k) && (bodiesAt p q.1).all fun b => decide (q.1 + 1 + k ≤ b.2 + 1)
    | none => true) &&
    (match loopOf q.2 with
    | some l => decide (1 ≤ l.1 ∧ q.1 + l.1 < p.length) && decide ((bodiesAt p q.1).length < 4)
    | none => true)) &&
  (reached p).all fun i => decide (i < p.length)

/-! ## Vector chains (R161) -/

/-- The fields of a VEC instruction. -/
def vecAt (p : List BeadInstr) (i : Nat) : Option (Nat × Nat × VecFields) :=
  match p[i]? with
  | some (.vec op clen v) => some (op, clen, v)
  | _ => none

/-- The next VEC instructions on every path, with nothing but CTRL instructions apart from END in between; none where
something else lies there. -/
def nextVecs (p : List BeadInstr) : Nat → List Nat → List Nat → Option (List Nat)
  | _, [], _ => some []
  | 0, _ :: _, _ => none
  | k + 1, i :: todo, seen =>
    if seen.contains i then nextVecs p k todo seen
    else match p[i]? with
    | some (.vec _ _ _) => (nextVecs p k todo (i :: seen)).map fun l => i :: l
    | some (.ctrl op _ _ _ _) => if op = 0x1F then none else nextVecs p k (flows p i ++ todo) (i :: seen)
    | _ => none

/-- The stages of a chain of `k` more stages from `i`, on every path. -/
def chainsFrom (p : List BeadInstr) : Nat → Nat → Option (List (List Nat))
  | 0, i => some [[i]]
  | k + 1, i =>
    match nextVecs p (8 * p.length + 8) (flows p i) [] with
    | none => none
    | some ns => (ns.mapM (chainsFrom p k)).map fun ls => ls.flatten.map fun c => i :: c

/-- Every chain of two or more stages; none where one is broken. -/
def chains (p : List BeadInstr) : Option (List (List Nat)) :=
  (((indexed p).filterMap fun q => match q.2 with
    | .vec _ clen _ => if clen = 0 then none else some (q.1, clen)
    | _ => none).mapM fun h => chainsFrom p h.2 h.1).map List.flatten

/-- The chaining buffers that an instruction reads, one for each selector. -/
def readsBuffers (v : VecFields) : List (BitVec 3) := [v.asel, v.bsel, v.csel].filter fun s => decide (4 ≤ s.toNat)

/-- Elements that a stage puts out. -/
def outCount (op : Nat) (v : VecFields) : Nat :=
  if 0x20 ≤ op ∧ op ≤ 0x23 then (v.n.toNat + 1) / (v.aux.toNat + 1) else if op = 0x30 then 1 else v.n.toNat + 1

/-- The rules of a chain for one stage and those after it: only the last writes anything but a chaining buffer (VQB and VSTAT write
scratch, VHIST writes nothing), and each buffer written has one reader, through one selector, of as many elements. -/
def stageOk (x : Nat × Nat × VecFields) (later : List (Nat × Nat × VecFields)) : Bool :=
  match later with
  | [] => decide (x.2.2.dsel.toNat < 4)
  | _ =>
    let readers := later.flatMap fun y => ((readsBuffers y.2.2).filter fun s => decide (s = x.2.2.dsel)).map fun _ => y
    decide (x.1 = 0x31 ∨ (4 ≤ x.2.2.dsel.toNat ∧ x.1 ≠ 0x1A ∧ x.1 ≠ 0x3F)) && later.all (fun y => decide (y.2.1 = 0)) &&
      (decide (x.1 = 0x31) ||
        (match readers with
        | [y] => decide (y.2.2.n.toNat + 1 = outCount x.1 x.2.2)
        | _ => false))

/-- The rules of a chain for all its stages. -/
def stagesOk : List (Nat × Nat × VecFields) → Bool
  | [] => true
  | x :: xs => stageOk x xs && stagesOk xs

/-- The chaining buffers that a program names. -/
def buffersOf (p : List BeadInstr) : List (BitVec 3) :=
  p.flatMap fun x => match x with
    | .vec _ _ v => readsBuffers v ++ (if 4 ≤ v.dsel.toNat then [v.dsel] else [])
    | _ => []

/-- Control reaches an instruction with `k` stages of a chain still to come: what is still to come after it. -/
def stagesAfter (x : BeadInstr) (k : Nat) : Nat :=
  match x with
  | .vec _ clen _ => if k = 0 then clen else k - 1
  | _ => k

/-- Every instruction that control reaches, with the stages of a chain then still to come. -/
def chainStates (p : List BeadInstr) : Nat → List (Nat × Nat) → List (Nat × Nat) → List (Nat × Nat)
  | 0, _, seen => seen
  | _, [], seen => seen
  | n + 1, q :: todo, seen =>
    if seen.contains q then chainStates p n todo seen
    else match p[q.1]? with
    | none => chainStates p n todo (q :: seen)
    | some x => chainStates p n ((flows p q.1).map (fun i => (i, stagesAfter x q.2)) ++ todo) (q :: seen)

/-- Chains keep R161, and no instruction that is issued outside one names a chaining buffer, on any path. -/
def chainsOk (p : List BeadInstr) : Bool :=
  match chains p with
  | none => false
  | some cs =>
    (cs.all fun c => stagesOk (c.filterMap (vecAt p))) &&
      (chainStates p (32 * p.length + 32) [(0, 0)] []).all fun q =>
        match p[q.1]? with
        | some (.vec op clen v) => decide (q.2 ≠ 0 ∨ clen ≠ 0 ∨ buffersOf [.vec op clen v] = [])
        | _ => true

/-! ## Accumulator selections (R167) -/

/-- The register that an instruction writes. -/
def writesReg : BeadInstr → Option (BitVec 4)
  | .ctrl op rd _ _ _ => if 1 ≤ op ∧ op ≤ 0x0B then some rd else none
  | _ => none

/-- What a register may hold where control reaches an instruction, as far as the program shows it: the immediate of each LI that
reaches it, 0 where the start of the step does (R111), none for every other value. -/
def reachingDefs (p : List BeadInstr) (r : BitVec 4) : Nat → List Nat → List Nat → List (Option (BitVec 64))
  | 0, _, _ => []
  | _, [], _ => []
  | n + 1, i :: todo, seen =>
    let start := if i = 0 then [if r = 1 then none else some 0#64] else []
    let before := (List.range p.length).filter fun j => (flows p j).contains i && !seen.contains j
    let defs := before.filterMap fun j => match (p[j]? : Option BeadInstr) with
      | some (.ctrl op rd _ _ imm) =>
        if 1 ≤ op ∧ op ≤ 0x0B ∧ rd = r ∧ r ≠ 0 then some (if op = 0x09 then some (imm.signExtend 64) else none) else none
      | _ => none
    let on := before.filter fun j => decide (r = 0) || ((p[j]? : Option BeadInstr).map fun x => decide (writesReg x ≠ some r)).getD false
    start ++ defs ++ reachingDefs p r n (on ++ todo) (before ++ seen)

/-- N of an instruction that reads accumulators is at most 64, or 128 with BOTH; a selection that the program does not show is
taken to have BOTH (R167; log 98). -/
def accCountOk (p : List BeadInstr) (i : Nat) : BeadInstr → Bool
  | .vec _ _ v =>
    decide (v.asel ≠ 1 ∨ v.n.toNat + 1 ≤ 64) ||
      (decide (v.n.toNat + 1 ≤ 128) &&
        (reachingDefs p v.a (p.length + 1) [i] []).all fun d => (d.map fun w => w.getLsbD 3).getD true)
  | _ => true

/-! ## Fields (R116) -/

/-- AUX, IMM and N of a VEC instruction, for a bead of frame `f` (R159, R160, R167, R168, R187, R419). -/
def vecFieldsOk (c : ImageContents) (entries f op : Nat) (v : VecFields) : Bool :=
  let n := v.n.toNat + 1
  let aux := v.aux.toNat
  let len := v.imm.toNat
  (if 0x20 ≤ op ∧ op ≤ 0x23 then decide (n % (aux + 1) = 0)
   else if op = 0x30 then
     decide (aux < 2 ^ 14) && (!bitAt aux 1 || decide (bits aux 13 2 = 0)) && decide (bits aux 13 2 ≤ entries)
   else if op = 0x31 then
     decide (aux < 16) && c.histTable.any fun h => decide (h.1 = f * 16 + aux) && histEnable h.2
   else if op = 0x19 then decide (aux < 2 ^ 9 ∧ len % 32 = 0 ∧ 32 ≤ len ∧ len ≤ 4096 ∧ n % max len 1 = 0)
   else if op = 0x1A then decide (aux = 0 ∧ n % 32 = 0)
   else decide (aux = 0))

/-- An event counter that the image defines for a bead. -/
def counterOk (c : ImageContents) (b : BeadId) (k : BitVec 5) : Bool :=
  c.defs.any fun d => decide (d.bead = b) && d.counters.getLsbD k.toNat

/-- A scratch range that the image defines for a bead. -/
def rangeOk (c : ImageContents) (b : BeadId) (off len : Nat) : Bool :=
  c.defs.any fun d => decide (d.bead = b) && d.ranges.any fun r => decide (r.1 ≤ off ∧ off + len ≤ r.1 + r.2)

/-- An instruction of a bead names only the coils, event counters and mover program entries that the image defines (R116). The
bead that a SIGNAL adds to is in a register: some bead must have the counter, unless it is a bead of the twin. A scratch range is
named by an address in a register, which no word shows (log 98). -/
def instrOk (c : ImageContents) (coils : List (Nat × List BeadId)) (entries : Nat) (b : BeadId) : BeadInstr → Bool
  | .ctrl _ _ _ _ _ => true
  | .wait k _ _ => counterOk c b k
  | .signal k _ scope => decide (scope = 4) || c.defs.any fun d => d.counters.getLsbD k.toNat
  | .mma m => !m.evtEn || counterOk c b m.evt
  | .mv m => (!m.evtEn || counterOk c b m.evt) &&
    (decide (m.channel ≠ 3) || c.moverProgs.any fun e => decide (e.rod = b.rod ∧ e.prog = m.prog.toNat))
  | .coil _ k => (!k.evtEn || counterOk c b k.evt) && coils.any fun q => decide (q.1 = k.coilId.toNat) && q.2.contains b
  | .vec op _ v => (!v.evtEn || counterOk c b v.evt) && vecFieldsOk c entries b.frame op v

/-- PASS_SPLIT and TIE_SPLIT of a thread, and the carry operations that it may issue only from the split on (R192, R194, R212). A
thread of a tied firing has both splits. -/
def splitsOk (p : List BeadInstr) (t : Thread) (mode : Nat) (tied : Bool) : Bool :=
  (match t.passSplit with
  | some k => decide (k ≤ p.length) && decide (mode ≠ 0 ∧ mode ≠ 2) && (bodiesAt p k).isEmpty &&
    (match t.carryFrom with
    | some i => decide (k ≤ i)
    | none => true)
  | none => !tied) &&
  decide (tied → t.tieSplit.isSome = true) &&
  (match t.tieSplit with
  | some k => tied && decide (t.passSplit.getD 0 ≤ k ∧ k ≤ p.length)
  | none => true)

/-- One thread program passes. -/
def threadOk (c : ImageContents) (coils : List (Nat × List BeadId)) (entries mode : Nat) (tied : Bool) (t : Thread) : Bool :=
  match parseProgram t.words.length t.words with
  | none => false
  | some p =>
    decide (t.ctx < 8) && flowOk p && chainsOk p && p.all (instrOk c coils entries t.bead) &&
      (indexed p).all (fun q => accCountOk p q.1 q.2) && splitsOk p t mode tied

/-- Two contexts of one bead share a chaining buffer, or two programs are given for one context. -/
def threadsClash (t u : Thread) : Bool :=
  decide (t.bead = u.bead) &&
    (decide (t.ctx = u.ctx) ||
      (match parseProgram t.words.length t.words, parseProgram u.words.length u.words with
      | some p, some q => (buffersOf p).any (buffersOf q).contains
      | _, _ => false))

/-- No two threads clash. -/
def threadsApart : List Thread → Bool
  | [] => true
  | t :: ts => (ts.all fun u => !threadsClash t u) && threadsApart ts

/-- Every step program of an image passes. -/
def programsOk (c : ImageContents) (coils : List (Nat × List BeadId)) (entries mode : Nat) (tied : Bool) : Bool :=
  c.threads.all (fun t => threadOk c coils entries mode tied t && (c.computeRods ++ c.shadowRods).contains t.bead.rod) &&
    threadsApart c.threads &&
    -- a firing with a pass split has one in every thread program (R192)
    (c.threads.all (fun t => t.passSplit.isNone) || c.threads.all fun t => t.passSplit.isSome)

end Sys2Proof.Machine
end

