-- ==== Sys2Proof/Machine/Image.lean ====
section
/-! DEFINITION. Firing images: header, section table, bound and floor records, the sections whose bytes the spec gives, and
admission check 1 (R28 to R34, R36, R59, R116, R140, R141, R187, R197, R198, R215, R417, R418, R421, R480; log 8, 38). -/

namespace Sys2Proof.Machine

/-! ## Sections (R30, R31) -/

/-- A section table entry. -/
structure Section where
  type : Nat
  frame : Nat
  off : Nat
  len : Nat
  crc : Nat
  reserved : Bool
deriving DecidableEq, Repr

/-- Entry `i` of a section table at `off`. -/
def sectionAt (bs : List Byte) (off i : Nat) : Section :=
  let e := (bs.drop (off + 16 * i)).take 16
  ⟨fieldAt e 0 2, fieldAt e 2 1, fieldAt e 4 4, fieldAt e 8 4, fieldAt e 12 4, decide (fieldAt e 3 1 ≠ 0)⟩

/-- The bytes of a section. -/
def Section.bytes (x : Section) (bs : List Byte) : List Byte := (bs.drop x.off).take x.len

/-- An entry of a known type, for a frame or all, on a 64 B boundary, inside the image, with its CRC. -/
def Section.ok (x : Section) (bs : List Byte) : Bool :=
  decide (1 ≤ x.type ∧ x.type ≤ 0x0B) && decide (x.frame < 20 ∨ x.frame = 0xFF) && !x.reserved &&
    decide (x.off % 64 = 0 ∧ x.off + x.len ≤ bs.length) && decide (crc32 (x.bytes bs) = x.crc)

/-- Sections of a type. -/
def ofType (xs : List Section) (t : Nat) : List Section := xs.filter fun x => decide (x.type = t)

/-- A frame section type appears once for all frames, or at most once for each frame of a mask (R480). -/
def frameSectionOk (xs : List Section) (t : Nat) (mask : BitVec 20) : Bool :=
  let fs := (ofType xs t).map fun x => x.frame
  decide (fs = [0xFF]) || (decide (fs.eraseDups.length = fs.length) && fs.all fun f => decide (f < 20) && inMask mask f)

/-- A type that appears at most once, for all frames (R480). -/
def singleOk (xs : List Section) (t : Nat) : Bool :=
  match ofType xs t with
  | [] => true
  | [x] => decide (x.frame = 0xFF)
  | _ => false

/-- A section of a type is present. -/
def hasSection (xs : List Section) (t : Nat) : Bool := decide (ofType xs t ≠ [])

/-- A type is present for every frame of a mask. -/
def coversFrames (xs : List Section) (t : Nat) (mask : BitVec 20) : Bool :=
  (maskFrames mask).all fun f => (ofType xs t).any fun x => decide (x.frame = 0xFF ∨ x.frame = f)

/-! ## COIL_ROUTE (R140, R141) -/

/-- The entry at an offset of a COIL_ROUTE section, with its bead list; none where a field is out of its range. -/
def coilAt (bs : List Byte) (at' : Nat) (pinned : Nat → Nat → Bool) : Option (CoilEntry × Nat) :=
  let e := (bs.drop at').take 32
  let kind := fieldAt e 2 1
  let space := fieldAt e 3 1
  let len := fieldAt e 4 2
  let port := fieldAt e 6 1
  let source := fieldAt e 8 8
  let pass := fieldAt e 0x10 4
  let list := fieldAt e 0x14 4
  let beads := (List.range len).map fun i =>
    let b := (bs.drop (list + 16 * i)).take 16
    (⟨BeadId.ofRef (fieldAt b 0 4), fieldAt b 4 4, fieldAt b 8 4⟩ : CoilTake)
  let listOk := (List.range len).all fun i =>
    let b := (bs.drop (list + 16 * i)).take 16
    decide (fieldAt b 0 4 < 2 ^ 19) && zeroAt b 12 4 &&
      (decide (kind = 0) || decide (fieldAt b 4 4 = 0 ∧ fieldAt b 8 4 = 0))
  if fieldAt e 0 2 < 4096 ∧ kind ≤ 1 ∧ 2 ≤ len ∧ len ≤ 4096 ∧ port ≤ 1 ∧ zeroAt e 7 1 ∧ zeroAt e 0x18 8 ∧ pass % 64 = 0 ∧
      list + 16 * len ≤ bs.length ∧ listOk ∧ beads.all (fun t => t.bead.ok) ∧
      (if kind = 1 then decide (space = 0 ∧ pass ≤ 16384)
        else decide (space = 1) || (decide (space = 2) && pinned source pass)) then
    some (⟨fieldAt e 0 2, kind, space, port, source, pass, beads⟩, list)
  else none

/-- The entries of a COIL_ROUTE section: one after another up to the first bead list (log 38). -/
def coilEntries (bs : List Byte) (pinned : Nat → Nat → Bool) : Nat → Nat → Nat → Option (List CoilEntry)
  | 0, _, _ => none
  | k + 1, at', stop =>
    if stop ≤ at' then some []
    else match coilAt bs at' pinned with
    | none => none
    | some c => (coilEntries bs pinned k (at' + 32) (min stop c.2)).map fun l => c.1 :: l

/-- Ports that coils use. -/
def coilPorts (cs : List CoilEntry) : List (BeadId × Nat) := cs.flatMap fun c => c.beads.map fun t => (t.bead, c.port)

/-- Every coil of an image: IDs unique, each bead port in at most one coil. -/
def coilsOf (xs : List Section) (bs : List Byte) (pinned : Nat → Nat → Bool) : Option (List CoilEntry) :=
  match (ofType xs 4).mapM fun x => coilEntries (x.bytes bs) pinned 134217728 0 x.len with
  | none => none
  | some ls =>
    let cs := ls.flatten
    if (cs.map fun c => c.id).eraseDups.length = cs.length ∧ (coilPorts cs).eraseDups.length = (coilPorts cs).length then
      some cs
    else none

/-! ## GRAD_RULES (R197, R198) -/

/-- The four words of rule `i`. -/
def ruleAt (bs : List Byte) (i : Nat) : List Word64 :=
  (List.range 4).map fun k => BitVec.ofNat 64 (fieldAt bs (16 + 32 * i + 8 * k) 8)

/-- Byte field of a rule's words. -/
def ruleField (r : List Word64) (off n : Nat) : Nat := ((r.getD (off / 8) 0).toNat / 2 ^ (off % 8 * 8)) % 2 ^ (8 * n)

/-- UNIT. -/
def ruleUnit (r : List Word64) : Nat := ruleField r 2 1
/-- FRAMES. -/
def ruleFrames (r : List Word64) : BitVec 20 := BitVec.ofNat 20 (ruleField r 4 4)
/-- WORD_OFFSET. -/
def ruleOffset (r : List Word64) : Nat := ruleField r 8 2
/-- INIT_FMT. -/
def ruleInit (r : List Word64) : Nat := ruleField r 3 1

/-- One rule's fields are in their ranges. -/
def ruleOk (c : ImageContents) (beadFrames : BitVec 20) (r : List Word64) : Bool :=
  let span4 := ruleField r 0xA 1
  let span5 := ruleField r 0xB 1
  decide (ruleField r 0 2 < 1024 ∧ ruleUnit r < 16 ∧ ruleField r 4 4 < 2 ^ 20 ∧ ruleFrames r ≠ 0) &&
  decide (ruleInit r = 0 ∨ ruleInit r = 1 ∨ ruleInit r = 5) &&
  decide (ruleFrames r &&& beadFrames = ruleFrames r) &&
  decide (ruleOffset r % 8 = 0 ∧ ruleOffset r + 8 ≤ 16384) &&
  decide (1 ≤ span4 ∧ span4 ≤ span5 ∧ span5 ≤ 28) &&
  decide (1 ≤ ruleField r 0x10 8 ∧ ruleField r 0x10 8 ≤ 2 ^ 48 ∧ 1 ≤ ruleField r 0x18 1 ∧ ruleField r 0x19 7 = 0) &&
  (maskFrames (ruleFrames r)).all fun f =>
    c.histTable.any fun h => decide (h.1 = f * 16 + ruleUnit r) && histEnable h.2

/-- Two rules on a common frame use different units and words. -/
def rulesApart : List (List Word64) → Bool
  | [] => true
  | r :: rs => (rs.all fun q => decide (ruleFrames r &&& ruleFrames q = 0) ||
      decide (ruleUnit r ≠ ruleUnit q ∧ ruleOffset r ≠ ruleOffset q)) && rulesApart rs

/-- The rules and EVAL_STEPS of a GRAD_RULES section. -/
def rulesOf (xs : List Section) (bs : List Byte) (c : ImageContents) (beadFrames : BitVec 20) :
    Option (List (List Word64) × Nat) :=
  match ofType xs 9 with
  | [] => some ([], 1)
  | x :: _ =>
    let g := x.bytes bs
    let n := fieldAt g 0 2
    let rs := (List.range n).map fun i => ruleAt g i
    if 1 ≤ n ∧ n ≤ 320 ∧ 1 ≤ fieldAt g 2 2 ∧ fieldAt g 2 2 ≤ 4096 ∧ zeroAt g 4 12 ∧ 16 + 32 * n ≤ x.len ∧
        rs.all (ruleOk c beadFrames) ∧ rulesApart rs then
      some (rs, fieldAt g 2 2)
    else none

/-! ## HISTORY (R215, R217) -/

/-- Bytes of a slot table entry. -/
def slotEntryBytes (blocks : Nat) : Nat := (16 + 8 * blocks + 63) / 64 * 64

/-- A range lies in the placement. -/
def placed (rs : List Region) (va n : Nat) : Bool := insideRegions rs (rs.length + 1) va n

/-- The fields of a HISTORY section: SEQ_BLOCKS, JOIN_MAX, MAX_STEPS, SLOT_WORD_OFFSET, SLOT_TABLE. -/
structure HistoryRec where
  blocks : Nat
  joinMax : Nat
  maxSteps : Nat
  wordOffset : Nat
  table : Nat
deriving DecidableEq, Repr

/-- The HISTORY section of an image, checked; zeros where there is none. -/
def historyOf (xs : List Section) (bs : List Byte) (c : ImageContents) (batch : Nat) : Option HistoryRec :=
  match ofType xs 0xB with
  | [] => some ⟨0, 0, 0, 0, 0⟩
  | x :: _ =>
    let g := x.bytes bs
    let h : HistoryRec := ⟨fieldAt g 0 2, fieldAt g 2 1, fieldAt g 4 2, fieldAt g 6 2, fieldAt g 8 8⟩
    if x.len = 32 ∧ zeroAt g 3 1 ∧ zeroAt g 0x10 16 ∧ 1 ≤ h.blocks ∧ h.blocks ≤ 4096 ∧ 1 ≤ h.joinMax ∧ h.joinMax ≤ batch ∧
        1 ≤ h.maxSteps ∧ h.wordOffset % 8 = 0 ∧ h.wordOffset + batch * 8 ≤ 16384 ∧ h.table % 64 = 0 ∧
        placed c.placement h.table (batch * slotEntryBytes h.blocks) ∧
        c.placement.any (fun r => decide (r.kind = .history)) then some h
    else none

/-! ## RANGE_ENVELOPE (R417, R418) -/

/-- One envelope entry keeps R417. -/
def envelopeOk (e : List Byte) (outputs : Nat) : Bool :=
  let layer := fieldAt e 0 2
  let kind := fieldAt e 2 1
  let reduce := fieldAt e 3 1
  let low := val32 (BitVec.ofNat 32 (fieldAt e 4 4))
  let high := val32 (BitVec.ofNat 32 (fieldAt e 8 4))
  let output := fieldAt e 0xC 2
  decide (layer ≤ 1023 ∨ layer = 0xFFFF) && decide (kind ≤ 1) &&
    (if kind = 1 then decide (reduce ≤ 3) else decide (reduce = 0)) &&
    !low.isNan && !high.isNan && !high.lt low &&
    (if layer = 0xFFFF then decide (output < outputs) else decide (output = 0)) && zeroAt e 0xE 2

/-- Entry `i` of an envelope section. -/
def envelopeAt (g : List Byte) (i : Nat) : List Byte := (g.drop (16 + 16 * i)).take 16

/-- The number of envelope entries of an image; none where they break R417 or R418. -/
def envelopesOf (xs : List Section) (bs : List Byte) (outputs mode : Nat) : Option Nat :=
  match ofType xs 8 with
  | [] => if mode = 0 then none else some 0
  | x :: _ =>
    let g := x.bytes bs
    let n := fieldAt g 0 2
    let es := (List.range n).map (envelopeAt g)
    if 1 ≤ n ∧ n ≤ 4095 ∧ zeroAt g 2 14 ∧ 16 + 16 * n ≤ x.len ∧ es.all (fun e => envelopeOk e outputs) ∧
        (mode ≠ 0 ∨ (List.range outputs).all fun o => es.any fun e =>
          decide (fieldAt e 0 2 = 0xFFFF ∧ fieldAt e 0xC 2 = o)) then some n
    else none

/-! ## Contents (R31, R59, R187, R421, R480; log 8) -/

/-- Bytes of a delivery record of a class (R60). -/
def recordBytes (cls blocks : Nat) : Nat := 8 + glazePad blocks + blocks * blockBytes cls

/-- The widest class that ALLOWED permits in either tier. -/
def widest (allowed : BitVec 8) : Nat :=
  if allowed.getLsbD 0 || allowed.getLsbD 3 then 0 else if allowed.getLsbD 1 || allowed.getLsbD 4 then 1 else 2

/-- A list of the gather plan has its fields in their ranges and leaves room for its records (R59). -/
def planOk (c : ImageContents) (batch : Nat) (p : PlanList) : Bool :=
  let len := recordBytes (widest p.allowed) (p.rowElements / 32)
  decide (1 ≤ p.perBead ∧ p.perBead ≤ 2048 ∧ p.destOffset % 8 = 0 ∧ p.destStride % 8 = 0 ∧ p.destStride < 65536 ∧ p.counter < 32 ∧
    p.route < c.routes.length ∧ p.firstPos < 2 ^ 32) &&
  decide (len ≤ p.destStride ∧ p.destOffset + (p.perBead - 1) * p.destStride + len ≤ 16384) &&
  (match p.slot with
  | some k => decide (k < batch)
  | none => true)

/-- A location of a mover program entry of rod `r` (R122, R123, R127, R223, R253): scratch of a bead of the firing, in a range that
the image defines for it, the rod's own pool, device or host memory, or the request block or the output position of a batch slot. -/
def locOk (c : ImageContents) (rods : List RodId) (batch : Nat) (r : RodId) (len : Nat) : Loc → Bool
  | .scratch b off => b.ok && rods.contains b.rod && decide (off + len ≤ 16384) && rangeOk c b off len
  | .pool p off => decide (p = r ∧ off + len ≤ 65536)
  | .device va => decide (va + len ≤ 2 ^ 52)
  | .request k off => decide (k < batch ∧ off + len ≤ c.requestBytes)
  | .output k off => decide (k < batch ∧ off + len ≤ c.outputBytes)

/-- A mover program entry of a rod of the firing. -/
def moverOk (c : ImageContents) (rods : List RodId) (batch : Nat) (e : MoverProg) : Bool :=
  rods.contains e.rod && decide (e.prog < 4096) &&
    e.transfers.all fun t => locOk c rods batch e.rod t.len t.src && locOk c rods batch e.rod t.len t.dst

/-- Bytes that the reload entries of a rod move (R114). -/
def reloadBytes (c : ImageContents) (r : RodId) : Nat :=
  (c.moverProgs.filter fun e => decide (e.rod = r) && e.reload).foldl (fun n e =>
    e.transfers.foldl (fun n t => n + t.len) n) 0

/-- The contents keep the rules that name them. -/
def contentsOk (c : ImageContents) (beadFrames : BitVec 20) (mode batch : Nat) : Bool :=
  let rods := c.computeRods ++ c.shadowRods
  rods.all (fun r => r.ok && inMask beadFrames r.frame) && decide (rods.eraseDups.length = rods.length) &&
    (decide (mode = 4) || decide ((c.computeRods.length + 63) / 64 ≤ c.shadowRods.length)) &&
    decide (c.rotationOffset % 8 = 0 ∧ c.rotationOffset + 8 ≤ 16384) &&
    c.histTable.all (fun h => decide (h.1 < 320 ∧ h.2.toNat < 2 ^ 9) && decide (histLow h.2 ≤ 100)) &&
    c.plan.all (planOk c batch) && c.routes.all (fun r => r.all fun b => b.ok && rods.contains b.rod) &&
    c.indexPositions.all (fun p => decide (p.2 % 4 = 0 ∧ p.2 + 4 ≤ c.requestBytes)) &&
    c.moverProgs.all (moverOk c rods batch) && rods.all (fun r => decide (reloadBytes c r ≤ 81920)) &&
    c.defs.all (fun d => d.bead.ok && d.ranges.all fun q => decide (q.1 + q.2 ≤ 16384)) &&
    c.tally.all (fun t => decide (t.1 < 20 ∧ t.2.1 < 10)) &&
    c.placement.all fun r => decide (r.frame < 20 ∧ r.va + r.bytes ≤ 2 ^ 52)

/-! ## The image (R29, R32, R33) -/

/-- The sections that R31 requires are present, and sections appear only as R480 allows. -/
def sectionsOk (xs : List Section) (c : ImageContents) (mode flags : Nat) (beadFrames shardFrames : BitVec 20) : Bool :=
  frameSectionOk xs 1 beadFrames && frameSectionOk xs 4 beadFrames &&
  frameSectionOk xs 3 (beadFrames ||| shardFrames) && frameSectionOk xs 5 (beadFrames ||| shardFrames) &&
  [2, 6, 7, 8, 9, 0xA, 0xB].all (singleOk xs) &&
  coversFrames xs 1 beadFrames && hasSection xs 1 && [2, 6, 7, 0xA].all (hasSection xs) &&
  (decide (mode ≠ 0) || hasSection xs 8) && (decide (mode ≠ 1) || hasSection xs 9) &&
  (!bitAt flags 1 || hasSection xs 0xB) && (!bitAt flags 2 || hasSection xs 5) &&
  (decide (c.plan = []) || hasSection xs 3)

/-- The bound record (R32). -/
def boundOk (b : List Byte) (off size : Nat) : Bool :=
  let n := fieldAt b 0xC 2
  decide (off % 64 = 0 ∧ n ≤ 64 ∧ off + 32 + 8 * n ≤ size) && zeroAt b 0xE 2 && zeroAt b 0x18 8 &&
    decide (fieldAt b 8 4 = 2 * fieldAt b 0 4 + fieldAt b 4 4) &&
    (List.range n).all fun i => zeroAt b (32 + 8 * i + 2) 2

/-- The floor record (R33). -/
def floorOk (b : List Byte) (off size : Nat) : Bool :=
  decide (off % 64 = 0 ∧ off + 32 ≤ size) && zeroAt b 0xC 20 &&
    decide (1 ≤ fieldAt b 0 4 ∧ fieldAt b 0 4 ≤ 900 ∧ fieldAt b 8 1 = 1 ∧ 1 ≤ fieldAt b 9 1 ∧ fieldAt b 9 1 ≤ 64 ∧
      fieldAt b 0xA 1 ≤ 4 ∧ 1 ≤ fieldAt b 0xB 1 ∧ fieldAt b 0xB 1 ≤ 125)

/-- The header (R29). -/
def headerOk (bs : List Byte) : Bool :=
  let n := fieldAt bs 6 2
  let table := fieldAt bs 0x20 4
  decide (fieldAt bs 0 4 = 0x4B414746 ∧ fieldAt bs 4 2 = 1 ∧ 1 ≤ n ∧ n ≤ 256 ∧ fieldAt bs 0x10 4 = bs.length ∧
    fieldAt bs 0x14 1 ≤ 5 ∧ fieldAt bs 0x15 1 < 8 ∧ 1 ≤ fieldAt bs 0x16 2 ∧ fieldAt bs 0x16 2 ≤ 64 ∧
    fieldAt bs 0x18 4 < 2 ^ 20 ∧ fieldAt bs 0x1C 4 < 2 ^ 20 ∧ table % 64 = 0 ∧ table + 16 * n ≤ bs.length) &&
  zeroAt bs 0x30 12 && decide (crc32 (bs.take 0x3C ++ (bs.drop table).take (16 * n)) = fieldAt bs 0x3C 4)

/-- The histogram tables of the STEP_PROGRAM sections, keyed frame·16 + unit: each belongs to a section, by its FRAME, and that of a
section with FRAME 0xFF applies on every frame of BEAD_FRAMES (R187, R480). -/
def histTables (xs : List Section) (hist : List (Nat × Word32)) (mask : BitVec 20) : Option (List (Nat × Word32)) :=
  if hist.all fun h => (ofType xs 1).any fun x => decide (x.frame = h.1 / 16) then
    some (hist.flatMap fun h => if h.1 / 16 = 0xFF then (maskFrames mask).map fun f => (f * 16 + h.1 % 16, h.2) else [h])
  else none

/-- The image's contents as they apply frame by frame. -/
def resolveContents (xs : List Section) (c : ImageContents) (mask : BitVec 20) : Option ImageContents :=
  (histTables xs c.histTable mask).map fun h => { c with histTable := h }

/-- Admission check 1 (R36): the image that bytes and contents spell, or none. -/
def parseImage (bs : List Byte) (contents : ImageContents) : Option Image :=
  if !headerOk bs then none
  else
    let xs := (List.range (fieldAt bs 6 2)).map (sectionAt bs (fieldAt bs 0x20 4))
    let mode := fieldAt bs 0x14 1
    let flags := fieldAt bs 0x15 1
    let batch := fieldAt bs 0x16 2
    let beadFrames := BitVec.ofNat 20 (fieldAt bs 0x18 4)
    let shardFrames := BitVec.ofNat 20 (fieldAt bs 0x1C 4)
    let bound := bs.drop (fieldAt bs 0x24 4)
    let floor := bs.drop (fieldAt bs 0x28 4)
    (resolveContents xs contents beadFrames).bind fun c =>
    if xs.all (fun x => x.ok bs) && sectionsOk xs c mode flags beadFrames shardFrames &&
        boundOk bound (fieldAt bs 0x24 4) bs.length && floorOk floor (fieldAt bs 0x28 4) bs.length &&
        contentsOk c beadFrames mode batch then
      match coilsOf xs bs (placed c.placement), rulesOf xs bs c beadFrames, historyOf xs bs c batch,
        envelopesOf xs bs c.outputs mode with
      | some coils, some rules, some hist, some entries =>
        if programsOk c (coils.map fun k => (k.id, k.beads.map fun t => t.bead)) entries mode (bitAt flags 0) then
          some {
            firingId := BitVec.ofNat 64 (fieldAt bs 8 8), mode := mode, tied := bitAt flags 0, seq := bitAt flags 1,
            carryFlag := bitAt flags 2, batchSlots := batch, beadFrames := beadFrames, shardFrames := shardFrames,
            stepBound := fieldAt bound 0 4, holdNs := fieldAt bound 4 4, floorMops := fieldAt floor 0 4,
            minPch := fieldAt floor 9 1, minPkg := fieldAt floor 0xA 1, minRods := fieldAt floor 0xB 1, contents := c,
            rules := rules.1, evalSteps := rules.2, seqBlocks := hist.blocks, joinMax := hist.joinMax,
            maxSteps := hist.maxSteps, slotWordOffset := hist.wordOffset, slotTable := hist.table, coils := coils }
        else none
      | _, _, _, _ => none
    else none

/-- The image buffer of a command: contiguous pinned device memory of the partition, IMAGE_BYTES long (R28, R34). A burst
that cannot be read makes the image unreadable. -/
def State.imageAt (s : State) (n va : Nat) (c : ImageContents) : Option Image :=
  match s.pinnedRange n va 64 with
  | none => none
  | some head =>
    let size := leNat (s.pinBytes head (va + 0x10) 4)
    if (s.pinBad head va 64).isSome ∨ size < 64 ∨ 0x10000000 < size then none
    else match s.pinnedRange n va size with
    | none => none
    | some pins => if (s.pinBad pins va size).isSome then none else parseImage (s.pinBytes pins va size) c

end Sys2Proof.Machine
end

