-- ==== Sys2Proof/Machine/Admission.lean ====
section
/-! DEFINITION. Admission: checks 2 to 10, what a firing takes and gives back, accounting records, pending frame actions,
entry (R36 to R44, R114, R355 to R363, R413). -/

namespace Sys2Proof.Machine

/-! ## Checks 2 to 10 (R36) -/

/-- Frames that an image names, in ascending order. -/
def Image.namedFrames (i : Image) : List Nat := (List.range 20).filter i.names

/-- Check 2. -/
def State.modeOk (s : State) (n : Nat) (i : Image) : Bool :=
  (!i.tied || decide (3 ≤ i.mode ∧ i.mode ≤ 5)) && !(decide (i.mode = 1 ∨ i.mode = 2) && (s.part n).live.serveOnly)

/-- Check 3. -/
def State.framesOk (s : State) (n : Nat) (i : Image) : Bool :=
  decide (i.beadFrames &&& (s.part n).frames = i.beadFrames) && i.namedFrames.all fun f => !(s.frame f).fenced

/-- Check 4, of one frame. -/
def State.stacksOk (s : State) (i : Image) (f : Nat) : Bool :=
  let m := (s.frame f).mem
  decide (i.minPch ≤ m.pch ∧ i.minPkg ≤ m.pkg ∧ m.band ≤ 1)

/-- Check 4. -/
def State.resourcesOk (s : State) (i : Image) : Bool :=
  i.namedFrames.all (s.stacksOk i) && i.rods.all fun r =>
    let g := (s.frame r.frame).group r.group
    decide (i.minRods ≤ g.enabled) && (g.phys r.pos).isSome

/-- A page of a PLACEMENT region, as its walk finds it (check 6). -/
def State.regionPage (s : State) (n : Nat) (r : Region) (page : Nat) : Option PinPage :=
  match s.walk n (page * 65536) with
  | .bad _ => none
  | .leaf w =>
    let l := Leaf.ofWord w
    if l.loc = r.tier.num ∧ l.frame = r.frame ∧ l.pin then some ⟨page, l.place, l.write⟩ else none

/-- The pages of a PLACEMENT region; none where it fails check 6. -/
def State.regionPages (s : State) (n : Nat) (r : Region) : Option (List PinPage) :=
  let current := match s.tableAt r.frame r.table with
    | some t => decide (t.generation = r.generation)
    | none => false
  if r.kind = .shard ∧ !current then none else (pagesOf r.va r.bytes).mapM (s.regionPage n r)

/-- The pin table that an image's PLACEMENT gives; none where it fails check 6 (R36, R272). -/
def State.pinsOf (s : State) (n : Nat) (i : Image) : Option (List PinPage) :=
  (i.contents.placement.mapM (s.regionPages n)).map List.flatten

/-- Check 7, with the units of firing `h` free. -/
def State.tallyOk (s : State) (n h : Nat) (i : Image) : Bool :=
  (List.range 20).all fun f => (List.range 10).all fun a =>
    decide (s.firingUnits n h f a + i.tally f a ≤ (s.part n).allocOf f a)

/-- The lowest voltage, as an entry of the cone table, whose certified rate is at least `mops` (R44, R439). -/
def Cone.entryFor (c : Cone) (mops : Nat) : Option Nat := c.tableRate.findIdx? fun r => decide (mops ≤ r)

/-- Whether the cap allows a voltage at or above an entry: some entry from there on has its rated power within the cap
(R364). -/
def Cone.capAllows (c : Cone) (e : Nat) : Bool := (c.tablePower.drop e).any fun p => decide (p ≤ c.cap * 10)

/-- Check 8. -/
def State.floorsOk (s : State) (i : Image) : Bool :=
  i.namedFrames.all fun f =>
    match (s.frame f).cone.entryFor i.floorMops with
    | some e => (s.frame f).cone.capAllows e
    | none => false

/-- Check 9: against the other firings with beads on a common frame; with none there, HOLD_NS is not asked (log 40). -/
def State.holdsOk (s : State) (h : Nat) (i : Image) : Bool :=
  s.firings.all fun x => decide (x.handle = h) || !x.holds || x.images.all fun j =>
    decide (i.beadFrames &&& j.beadFrames = 0) ||
      decide (j.stepBound + 10000 ≤ i.holdNs ∧ i.stepBound + 10000 ≤ j.holdNs)

/-- Address of block 0 of a partition's history pool (R213). -/
def Part.poolVa (p : Part) : Nat := p.live.poolBase.toNat * 16384

/-- Check 10 (R215). -/
def State.historyOk (s : State) (n : Nat) (i : Image) : Bool :=
  let p := s.part n
  let regions := i.contents.placement.filter fun r => decide (r.kind = .history)
  !i.seq || (decide (p.live.poolBlocks ≠ 0 ∧ i.joinMax * i.seqBlocks ≤ p.live.poolBlocks) &&
    (regions.all fun r => decide (p.poolVa ≤ r.va ∧ r.va + r.bytes ≤ p.poolVa + p.live.poolBlocks * 16384)) &&
    placed regions p.poolVa (p.live.poolBlocks * 16384))

/-- Checks 3 to 10, in order: the reason of the first that fails. -/
def State.checksFrom3 (s : State) (n h : Nat) (i : Image) : Option Nat :=
  if !s.framesOk n i then some 0x03
  else if !s.resourcesOk i then some 0x04
  else if i.rods.any (s.rodBusy h) then some 0x05
  else if (s.pinsOf n i).isNone then some 0x06
  else if !s.tallyOk n h i then some 0x07
  else if !s.floorsOk i then some 0x08
  else if !s.holdsOk h i then some 0x09
  else if !s.historyOk n i then some 0x0A
  else none

/-- Checks 2 to 10, with what firing `h` holds free: the reason of the first that fails. -/
def State.admitChecks (s : State) (n h : Nat) (i : Image) : Option Nat :=
  if !s.modeOk n i then some 0x02 else s.checksFrom3 n h i

/-- The reach test of R44: the newest cone table, whether or not the frame has taken it yet (R441), certifies the floor. -/
def Cone.reaches (c : Cone) (mops : Nat) : Bool := (c.nextRate.getD c.tableRate).any fun r => decide (mops ≤ r)

/-- The re-check of R44: checks 3 and 4, and the reach test. -/
def State.recheckOk (s : State) (f : Firing) : Bool :=
  s.framesOk f.part f.img && s.resourcesOk f.img && f.img.namedFrames.all fun k => (s.frame k).cone.reaches f.img.floorMops

/-! ## Banks and pending actions -/

/-- A PASSED bank but one becomes STALE (R413). -/
def State.staleBanks (s : State) (except : Option Nat) : State :=
  let stale := fun b : BankState => if b.state = 3 then { b with state := 5 } else b
  let t := s.forEach ((List.range 4).filter fun n => decide (except ≠ some n)) fun t n =>
    t.modPart n fun p => { p with bank := stale p.bank }
  if except = some 4 then t else { t with mb := stale t.mb }

/-- Request a frame action on every frame of a mask (R39). -/
def State.requestAction {n : Nat} (s : State) (mask : BitVec n) (a : FrameAction) : State :=
  s.forEach (maskFrames mask) fun t f => t.modFrame f fun x =>
    if x.actions.contains a then x else { x with actions := x.actions ++ [a] }

/-- Drop a frame action everywhere. -/
def State.dropAction (s : State) (p : FrameAction → Bool) : State :=
  s.forEach (List.range 20) fun t f => t.modFrame f fun x => { x with actions := x.actions.filter fun a => !p a }

/-- Some frame but `f` that is not fenced still has an action pending. -/
def State.actionLeft (s : State) (a : FrameAction) : Bool :=
  (List.range 20).any fun f => !(s.frame f).fenced && (s.frame f).actions.contains a

/-- Commands of a firing that count as waiting (R38, R216). -/
def State.hasWork (s : State) (f : Firing) : Bool :=
  s.cmds.any fun c => decide (c.d.opcode = 0x02 ∧ c.port = f.part ∧ c.handle = f.handle) && !s.cplHeld c && match c.phase with
    | .waiting | .pendingSeq | .inSlot _ => true
    | _ => false

/-- Frames at whose quiescent points a firing is withdrawn or re-checked: those of its beads, or where it has none those of its
shards (R43, R44; log 89). -/
def Image.ownFrames (i : Image) : BitVec 20 := if i.beadFrames = 0 then i.shardFrames else i.beadFrames

/-- A re-check is due that the firing fails, so it runs no further step (R25, R44). -/
def State.mustLeave (s : State) (f : Firing) : Bool :=
  (maskFrames f.img.ownFrames).any (fun k => (s.frame k).actions.contains .recheck) && !s.recheckOk f

/-- Firings on a frame that must start a step before the frame's next quiescent point: those with waiting commands that have
started none since the last one (R40). -/
def State.owes (s : State) (k : Nat) : Bool :=
  (s.frame k).owed.any fun h => match s.firing h with
    | some f => decide (f.status = .running) && s.hasWork f && !s.mustLeave f
    | none => false

/-- A frame starts no step: a quiescent point is due (R39, R40). -/
def State.frameHeld (s : State) (k : Nat) : Bool := decide ((s.frame k).actions ≠ []) && !s.owes k

/-! ## Accounting (R358, R359) -/

/-- The 64 B of a record. -/
def AcctRecord.bytes (r : AcctRecord) : List Byte :=
  leBytes 8 r.firingId.toNat ++ leBytes 4 r.handle ++ [BitVec.ofNat 8 r.state, BitVec.ofNat 8 r.kind] ++ leBytes 2 0 ++
  leBytes 8 r.steps ++ leBytes 8 r.commands ++ leBytes 8 r.sum ++
  (if r.kind = 0 then leBytes 4 r.max ++ leBytes 4 r.preempts else leBytes 8 r.max) ++ leBytes 8 r.last ++ leBytes 8 0

/-- The kiln master acts: there is one, on a frame that is not fenced and whose kiln is not absent (R20, R21, R405). -/
def State.masterActs (s : State) : Bool :=
  s.hasMaster && !(s.frame s.master.frame).fenced && !(s.frame s.master.frame).kiln.absent

/-- ACCOUNTING_WRITE: record `k` of partition `n` goes to the accounting area whole; without a kiln master that acts the write waits
(R359, R405). -/
def State.writeRecord (s : State) (n k : Nat) : State :=
  let va := (s.part n).live.acctBase.toNat * 16384 + 64 * k
  if (s.part n).live.acctBase = 0 ∨ !s.masterActs then s
  else match s.pinnedPage n va with
  | some g => if (s.frame g.place.frame).fenced then s
      else s.writeDev (g.place.add (va % 65536)) (Sparse.read AcctRecord.free (s.part n).acct k).bytes
  | none => s

/-- The accounting writes that waited for a kiln master (R405). -/
def State.writeRecords (s : State) : State :=
  s.forEach (List.range 4) fun t n => t.forEach ((t.part n).acct.map fun r => r.1) fun t k => t.writeRecord n k

/-- Change a record and write it. -/
def State.modRecord (s : State) (n k : Nat) (g : AcctRecord → AcctRecord) : State :=
  (s.modPart n fun p => { p with
    acct := Sparse.write AcctRecord.free p.acct k (g (Sparse.read AcctRecord.free p.acct k)) }).writeRecord n k

/-- Change the record of a firing, if it has one. -/
def State.modAcct (s : State) (f : Firing) (g : AcctRecord → AcctRecord) : State :=
  match f.acct with
  | some k => s.modRecord f.part k g
  | none => s

/-- KIND of a partition's records: USE where it holds more than 10 frames. -/
def Part.acctKind (p : Part) : Nat := bit (decide (10 < (maskFrames p.frames).length))

/-- The lowest free record of a partition with an accounting area. -/
def Part.freeRecord (p : Part) : Option Nat :=
  if p.live.acctBase = 0 then Option.none
  else (List.range 256).find? fun k => decide ((Sparse.read AcctRecord.free p.acct k).state = 0)

/-- Give a firing the lowest free record, or count it in NO_SLOT. -/
def State.takeRecord (s : State) (h : Nat) : State :=
  match s.firing h with
  | none => s
  | some f =>
    match (s.part f.part).freeRecord with
    | none => s.modPart f.part fun p => { p with acctNoSlot := inc32 p.acctNoSlot }
    | some k =>
      (s.modFiring h fun f => { f with acct := some k }).modRecord f.part k fun _ =>
        { AcctRecord.free with
          firingId := f.img.firingId, handle := h, state := if f.holds then 1 else 2, kind := (s.part f.part).acctKind }

/-! ## What a firing takes and gives back -/

/-- The rules of an image at entry (R203). -/
def Image.freshRules (i : Image) : List RuleState := i.rules.map fun r => ⟨ruleInit r, 0, [], [], none⟩

/-- A firing at its admission (R37). -/
def newFiring (h n : Nat) (i : Image) (pins : List PinPage) : Firing where
  handle := h
  part := n
  img := i
  status := .entering
  withdrawing := false
  step := none
  stepNo := 0
  stepsRun := 0
  swap := none
  rules := i.freshRules
  hist := []
  late := []
  pins := pins
  acct := none
  releasing := []
  leaving := []
  coils := []
  mismatches := []
  keptEvents := []
  ahead := []
  sent := []
  oldTables := []

/-- Run-ahead of a firing is cancelled: what it delivered counts as unwritten (R79, R355). -/
def State.cancelAhead (s : State) (h : Nat) (p : Nat → Bool) : State :=
  (s.modFiring h fun f => { f with ahead := f.ahead.filter fun a => !p a.cid }).forEach (List.range 20) fun t k =>
    t.modFrame k fun x => { x with gather := x.gather.map fun u => (u.1, { u.2 with
      lists := u.2.lists.filter fun l => !(decide (l.l.handle = h) && match l.ahead with
        | some c => p c
        | none => false) }) }

/-- Copy of a reload entry, on channel 3: through the pin table, or the partition's page tables where it does not hold the page.
A place in a request block or an output, in host memory or in another module's window, a page that faults, or a poisoned source,
moves nothing (R114, R127; log 43). -/
def State.reloadCopy (s : State) (r : RodId) (f : Firing) (t : Transfer) : State :=
  match s.transferCopy f ⟨[], false, [], [], 0⟩ t with
  | none => s
  | some c =>
    let a := channel3 r f
    let src := s.reaches a c.src c.len false
    let dst := s.reaches a c.dst c.len true
    if (badPiece (src ++ dst)).isSome ∨ (src ++ dst).any (fun q => isHost q || isRemote q) ∨ (s.poisonOf src dst).isSome ∨ s.barred dst then s
    else s.writePieces r f [] dst (s.readPieces src []).1

/-- A rod's scratch and pool are zeroed, and its reload entries run (R114). -/
def State.enterRod (s : State) (f : Firing) (r : RodId) : State :=
  (s.zeroRod r).forEach ((f.img.contents.moverProgs.filter fun e => decide (e.rod = r) && e.reload).flatMap fun e =>
    e.transfers) fun t x => t.reloadCopy r f x

/-- Some bank is COMMITTING: what passes its checks now could disagree with it at the point where it lands (R41, R413; log 88). -/
def State.committing (s : State) : Bool :=
  decide (s.mb.state = 6) || (List.range 4).any fun n => decide ((s.part n).bank.state = 6)

/-- The kiln master runs a FIRING_ADMIT or a COMMIT that has not completed yet (R35, R412). -/
def State.masterBusy (s : State) : Bool :=
  s.committing || s.cmds.any fun x => decide (x.d.opcode = 0x01 ∧ x.phase = .busy) && !s.cplHeld x

/-- The command that the kiln master may run next: one at a time, the oldest FIRING_ADMIT, CHECK or COMMIT that is ready (R35,
R412). One that waits for its fence or parameter block holds back no later one (log 88). -/
def State.masterTurn (s : State) (c : Nat) : Bool :=
  s.hasMaster && !s.master.moving && !s.masterBusy &&
    match s.cmds.find? fun x => decide ((x.d.opcode = 0x01 ∨ x.d.opcode = 0x28 ∨ x.d.opcode = 0x29) ∧ x.phase = .ready) &&
        !s.cplHeld x with
    | some x => decide (x.id = c)
    | none => false

/-- Free blocks of a history pool grow (R219). -/
def State.freeBlocks (s : State) (n : Nat) (bs : List Nat) : State :=
  if bs = [] then s else s.modPart n fun p => { p with blocks := p.blocks ++ bs }

/-- The FIRING_RUN commands of a firing in given phases, in acceptance order. -/
def State.runsOf (s : State) (f : Firing) (p : CmdPhase → Bool) : List Cmd :=
  s.cmds.filter fun c => decide (c.d.opcode = 0x02 ∧ c.port = f.part ∧ c.handle = f.handle) && p c.phase && !s.cplHeld c

/-- A command not yet taken into a step. -/
def CmdPhase.queued : CmdPhase → Bool
  | .ready | .waiting | .pendingSeq => true
  | _ => false

/-- A command in a batch slot. -/
def CmdPhase.joined : CmdPhase → Bool
  | .inSlot _ => true
  | _ => false

/-- Result of a FIRING_RUN: steps run, and q at its acceptance (R301). -/
def Cmd.runResult (c : Cmd) : Word64 := BitVec.ofNat 64 (c.steps % 65536 + min c.q 65535 * 65536)

/-- Kiln commands of an opcode that name a firing and wait for it to be applied. -/
def State.kilnCmds (s : State) (f : Firing) (op : Nat) : List Cmd :=
  s.cmds.filter fun c => decide (c.d.opcode = op ∧ c.phase = .busy ∧ c.port = f.part ∧ c.handle = f.handle) && !s.cplHeld c

/-- The FIRING_ADMIT of a firing that waits for its cone floor. -/
def State.admitCmds (s : State) (f : Firing) : List Cmd :=
  s.cmds.filter fun c => decide (c.d.opcode = 0x01 ∧ c.phase = .busy ∧ c.result.toNat = f.handle) && !s.cplHeld c

/-- WITHDRAW takes effect (R43, R225): queued commands are refused, joined sequences end FAULTED and their blocks are free at
once, a pending swap is refused, and the firing's rods, reservations and record go. -/
def State.removeFiring (s : State) (h : Nat) : State :=
  match s.firing h with
  | none => s
  | some f =>
    let t := s.cancelAhead h fun _ => true
    let t := t.forEach (s.runsOf f CmdPhase.queued) fun t c => t.refuse c.id 0x10
    let joined := s.runsOf f CmdPhase.joined
    let t := t.freeBlocks f.part ((joined.flatMap fun c => c.blocks) ++ f.releasing ++ f.leaving.flatMap fun q => q.2)
    let t := t.forEach joined fun t c => t.complete c.id 4 0 c.runResult
    let t := match f.swap with
      | some q => t.refuse q.1 0x10
      | none => t
    let t := t.forEach (s.admitCmds f) fun t c => t.completeOk c.id c.result
    let t := t.forEach (s.kilnCmds f 0x05 ++ s.kilnCmds f 0x06) fun t c =>
      if c.result = 0 then t.refuse c.id 0x10 else t.completeOk c.id 0
    let t := t.forEach (s.kilnCmds f 0x04) fun t c => t.completeOk c.id 0
    let t := t.modAcct f fun r => { r with state := 3 }
    let t := t.dropAction fun a => decide (a = .withdraw h ∨ a = .preempt h ∨ a = .entry h)
    ({ t with firings := t.firings.filter fun x => decide (x.handle ≠ h) } : State).retarget

end Sys2Proof.Machine
end

