-- ==== Sys2Proof/Machine/Firings.lean ====
section
/-! DEFINITION. The firing commands: FIRING_ADMIT, FIRING_RUN, FIRING_SWAP, FIRING_WITHDRAW, FIRING_PREEMPT, FIRING_RESUME
(R24, R34 to R43, R222, R225, R355, R356, R363). -/

namespace Sys2Proof.Machine

/-- A firing command whose handle is admitted to its partition; otherwise it is refused (R24, R355). -/
def State.onFiring (s : State) (x : Cmd) (g : State → Firing → State) : State :=
  match s.firing x.handle with
  | some f => if f.part = x.port then g s f else s.refuse x.id 0x10
  | none => s.refuse x.id 0x10

/-- A command that waits for a kiln action, with the handle that it will have acted on once its checks passed. -/
def State.busyCmd (s : State) (c h : Nat) : State :=
  s.modCmd c fun x => { x with phase := .busy, result := BitVec.ofNat 64 h }

/-! ## Admission -/

/-- The kiln is told to let a firing enter at the next quiescent point of its frames; one without beads enters at once
(R37). -/
def State.awaitEntry (s : State) (h : Nat) (i : Image) : State :=
  if i.beadFrames = 0 then s.modFiring h fun f => { f with status := .running }
  else s.requestAction i.beadFrames (.entry h)

/-- An image that passed every check becomes an admitted firing (R36, R37, R358, R413). -/
def State.admitImage (s : State) (x : Cmd) (i : Image) (pins : List PinPage) : State :=
  let h := s.nextHandle
  let t := ({ s with firings := s.firings ++ [newFiring h x.port i pins], nextHandle := (h + 1) % 2 ^ 32 } : State)
  ((((t.takeRecord h).awaitEntry h i).staleBanks none).retarget.busyCmd x.id h).admitsReached

/-- FIRING_ADMIT (R34 to R37, R363): one at a time in acceptance order, once the module has a kiln master (R20). `img` is
what the sections that Gaken owns hold (log 8). -/
def execFiringAdmit (c : Nat) (img : ImageContents) (s : State) : Outcome :=
  within true (s.when (s.up && s.masterTurn c) fun s => s.onReady c 0x01 fun s x =>
    match s.imageAt x.port x.op0.toNat img with
    | none => s.refuse c 0x01
    | some i =>
      match s.admitChecks x.port 0 i, s.pinsOf x.port i with
      | none, some pins => s.admitImage x i pins
      | some k, _ => s.refuse c k
      | none, none => s.refuse c 0x06)

/-! ## FIRING_RUN -/

/-- FIRING_RUN (R24, R27, R38, R216): a command whose handle was found admitted joins its firing's waiting commands. -/
def execFiringRun (c : Nat) (s : State) : Outcome :=
  within true (s.when s.up fun s => s.onReady c 0x02 fun s x =>
    s.onFiring x fun s _ => s.modCmd c fun x => { x with phase := .waiting })

/-! ## FIRING_SWAP -/

/-- Sequences joined or pending bar a swap to an image whose HISTORY section or BATCH_SLOTS differs (R225). -/
def State.swapBarred (s : State) (f : Firing) (b : Image) : Bool :=
  let a := f.img
  let same := decide (a.seq = b.seq ∧ a.seqBlocks = b.seqBlocks ∧ a.joinMax = b.joinMax ∧ a.maxSteps = b.maxSteps ∧
    a.slotWordOffset = b.slotWordOffset ∧ a.slotTable = b.slotTable ∧ a.batchSlots = b.batchSlots)
  !same && a.seq && decide (f.leaving ≠ [] ∨ s.runsOf f (fun p => p.joined || decide (p = .pendingSeq)) ≠ [])

/-- B takes A's place (R42, R114, R189, R203, R421): its rods are zeroed and reloaded, and rules, records and the step number
start anew; the handle and the accounting record stay. -/
def State.installSwap (s : State) (h c : Nat) (b : Image) (pins : List PinPage) : State :=
  match s.firing h with
  | none => s
  | some f =>
    let t := s.when (decide (f.img.contents.plan ≠ b.contents.plan)) fun s => s.cancelAhead h fun _ => true
    let g : Firing → Firing := fun f => { f with
      img := b, pins := pins, swap := none, stepNo := 0, rules := b.freshRules, hist := [], late := [],
      coils := [] }
    let t := t.modFiring h g
    let t := t.forEach b.rods fun t r => t.enterRod (g f) r
    ((t.modAcct f fun r => { r with firingId := b.firingId }).retarget).completeOk c 0

/-- A pending swap meets a step boundary of A, where no step runs (R42, R225, R363): refused where sequences bar it, done
once RATE has reached the floor of B, otherwise still pending. A map-out or band change since B's checks is not looked at again
before B takes A's place; B meets the re-check as an admitted firing then: DESIGN CHOICE (log 97). -/
def State.boundarySwap (s : State) (h : Nat) : State :=
  match s.firing h with
  | none => s
  | some f =>
    match f.swap with
    | none => s
    | some q =>
      if s.swapBarred f q.2.1 then
        ((s.modFiring h fun f => { f with swap := none }).retarget).refuse q.1 0x11
      else if s.rateReached q.2.1 then s.installSwap h q.1 q.2.1 q.2.2
      else s

/-- The swap becomes pending; A that sits at a step boundary with nothing waiting is replaced at once (R42). -/
def State.pendSwap (s : State) (x : Cmd) (f : Firing) (b : Image) (pins : List PinPage) : State :=
  let t := (((s.modFiring f.handle fun f => { f with swap := some (x.id, b, pins) }).staleBanks none).retarget).busyCmd x.id
    f.handle
  t.when (decide (f.status = .running ∧ f.step = none) && !s.hasWork f) fun t => t.boundarySwap f.handle

/-- FIRING_SWAP (R36, R42, R225, R363). A second swap of a firing waits until the first is decided (log 44), and any while a bank
is COMMITTING (log 88). -/
def execFiringSwap (c : Nat) (img : ImageContents) (s : State) : Outcome :=
  within true (s.when (s.up && s.hasMaster && !s.master.moving && !s.committing) fun s => s.onReady c 0x03 fun s x =>
    s.onFiring x fun s f => s.when (decide (f.swap = none)) fun s =>
      match s.imageAt x.port x.op1.toNat img with
      | none => s.refuse c 0x01
      | some b =>
        match s.admitChecks x.port f.handle b, s.pinsOf x.port b with
        | none, some pins => if s.swapBarred f b then s.refuse c 0x11 else s.pendSwap x f b pins
        | some k, _ => s.refuse c k
        | none, none => s.refuse c 0x06)

/-! ## FIRING_WITHDRAW -/

/-- FIRING_WITHDRAW (R43, R225): refused while a sequence is JOINED, one that is to leave at the next boundary included; applied
at the next quiescent point of the firing's frames. From its acceptance no sequence joins, and run-ahead stops (R79). -/
def execFiringWithdraw (c : Nat) (s : State) : Outcome :=
  within true (s.when s.up fun s => s.onReady c 0x04 fun s x =>
    s.onFiring x fun s f =>
      if f.img.seq ∧ (s.runsOf f CmdPhase.joined ≠ [] ∨ f.leaving ≠ []) then s.refuse c 0x11
      else
        let t := ((s.modFiring f.handle fun f => { f with withdrawing := true }).cancelAhead f.handle fun _ => true).busyCmd c
          f.handle
        if f.img.beadFrames = 0 ∧ f.step = none then t.removeFiring f.handle
        else t.requestAction f.img.beadFrames (.withdraw f.handle))

/-! ## Pre-emption and resumption -/

/-- Pre-emption takes effect (R355): the firing gives up rods, reservations and floor, and keeps the rest. -/
def State.applyPreempt (s : State) (h : Nat) : State :=
  match s.firing h with
  | none => s
  | some f =>
    let t := (s.dropAction fun a => decide (a = .entry h ∨ a = .preempt h)).modFiring h fun f =>
      { f with status := .preempted }
    let t := (t.cancelAhead h fun _ => true).modAcct f fun r =>
      { r with state := 2, preempts := if r.kind = 0 then inc32 r.preempts else r.preempts }
    (t.retarget).forEach (s.kilnCmds f 0x05) fun t c => t.completeOk c.id 0

/-- FIRING_PREEMPT (R355). -/
def execFiringPreempt (c : Nat) (s : State) : Outcome :=
  within true (s.when s.up fun s => s.onReady c 0x05 fun s x =>
    s.onFiring x fun s f =>
      if f.status = .preempted then s.completeOk c 0
      else
        let t := s.busyCmd c 0
        if f.img.beadFrames = 0 ∧ f.step = none then t.applyPreempt f.handle
        else t.requestAction f.img.beadFrames (.preempt f.handle))

/-- The time that a firing was pre-empted joins PREEMPT_US of a WAIT record (R359; log 5). -/
def AcctRecord.resumed (r : AcctRecord) (t : Nat) : AcctRecord :=
  { r with state := 1, last := if r.kind = 0 then sat64 (r.last + t) else r.last }

/-- A FIRING_RESUME tries checks 3 to 10, with a pending swap's image as well (R356; log 17). Passing, the firing takes rods
and reservations at once and enters at a quiescent point of its frames as at admission, its rules and its step number anew (R203,
R421); its histogram records stay (R355; log 46). While a bank is COMMITTING it waits (log 88). -/
def State.tryResume (s : State) (c : Nat) (f : Firing) : State :=
  if s.committing then s
  else match (f.images.findSome? fun i => s.checksFrom3 f.part f.handle i), s.pinsOf f.part f.img with
  | none, some pins =>
    let t := s.modFiring f.handle fun f => { f with status := .entering, pins := pins, stepNo := 0, rules := f.img.freshRules }
    let t := (t.modAcct f fun r => r.resumed (Config.freeTime s.free)).tick
    ((((t.awaitEntry f.handle f.img).staleBanks none).retarget).busyCmd c f.handle).admitsReached
  | _, _ => s

/-- Every FIRING_RESUME that waits for a firing with beads on frame `k` tries again (R356). -/
def State.retryResumes (s : State) (k : Nat) : State :=
  s.forEach (s.cmds.filter fun c => decide (c.d.opcode = 0x06 ∧ c.phase = .busy ∧ c.result = 0)) fun t c =>
    match t.firing c.handle with
    | some f => t.when (decide (f.part = c.port ∧ f.status = .preempted) && inMask f.img.beadFrames k) fun t =>
        t.tryResume c.id f
    | none => t

/-- FIRING_RESUME (R356). -/
def execFiringResume (c : Nat) (s : State) : Outcome :=
  within true (s.when (s.up && s.hasMaster && !s.master.moving) fun s => s.onReady c 0x06 fun s x =>
    s.onFiring x fun s f =>
      if f.status = .preempted then (s.busyCmd c 0).tryResume c f else s.completeOk c 0)

end Sys2Proof.Machine
end

