-- ==== Sys2Proof/Machine/Steps.lean ====
section
/-! DEFINITION. Steps: STEP_BOUNDARY, sequences, STEP_END, FORWARD_PASS_END, TIE_PASS_START, GRAD_RULE_EVAL
(R38, R48, R110 to R114, R189 to R203, R212, R216 to R223, R421). -/

namespace Sys2Proof.Machine

/-! ## Beads at a step boundary -/

/-- The beads of an image's rods. -/
def Image.beads (i : Image) : List BeadId := i.rods.flatMap RodId.beadList

/-- A context at the start of a step (R111): its program's first instruction, x1 the mask of the slots that hold a command; a
context without a program has ended. -/
def Image.ctxAt (i : Image) (b : BeadId) (x1 : Word64) (c : Nat) : Ctx :=
  match i.contents.threads.find? fun t => decide (t.bead = b ∧ t.ctx = c) with
  | some t => { Ctx.reset with
      regs := Sparse.write 0#64 [] 1 x1, ended := false, passSplit := t.passSplit, tieSplit := t.tieSplit }
  | none => Ctx.reset

/-- A bead at the start of a step: contexts (R111), event counters (R118), exception word (R171), histogram units (R188). -/
def Bead.startStep (x : Bead) (ctx : Nat → Ctx) : Bead :=
  (List.range 8).foldl (fun x c => x.setCtx c (ctx c)) { x with counters := [], releases := [], exc := 0, hist := [], histSat := [] }

/-- The mask of batch slots that hold a command (R111). -/
def slotMask (slots : List (Nat × Nat)) : Word64 := BitVec.ofNat 64 (slots.foldl (fun m q => m ||| 2 ^ q.1) 0)

/-- FORMAT_WORD_WRITE (R199): the format words in force go into the beads on their rules' frames. -/
def State.writeFormats (s : State) (f : Firing) : State :=
  s.forEach (List.zip f.img.rules f.rules) fun t r =>
    t.forEach (f.img.beads.filter fun b => inMask (ruleFrames r.1) b.frame) fun t b =>
      t.writeScratch b (ruleOffset r.1) (leBytes 8 (r.2.fmt % 16))

/-- ROTATION_WORD_WRITE (R421): every bead of a firing but a spot test's; the first step has s = 0. -/
def State.writeRotation (s : State) (f : Firing) : State :=
  s.when (decide (f.img.mode ≠ 4)) fun s => s.forEach f.img.beads fun t b =>
    t.writeScratch b f.img.contents.rotationOffset (leBytes 8 (f.stepNo % 64))

/-- STATE and STEP of a batch slot (R217). -/
def slotState (c : Option Cmd) : Nat × Nat :=
  match c with
  | some x => (if x.steps = 0 then 1 else 2, x.steps)
  | none => (0, 0)

/-- BLOCK of a slot table entry (R217): the addresses of the blocks that its sequence holds, 0 in an empty entry (log 41). -/
def blockWords (pool blocks : Nat) (c : Option Cmd) : List Byte :=
  padTo (8 * blocks) ((c.map fun x => x.blocks.flatMap fun b => leBytes 8 (pool + b * 16384)).getD [])

/-- SLOT_WORD_WRITE of one slot (R217): its whole table entry but LEAVE, which becomes 0 when a sequence joins, and its word in
every bead. An empty slot's entry holds 0 (log 41). -/
def State.writeSlot (s : State) (f : Firing) (slots : List (Nat × Nat)) (k : Nat) : State :=
  let x := (slots.find? fun q => decide (q.1 = k)).bind fun q => s.cmd q.2
  let st := slotState x
  let va := f.img.slotTable + k * slotEntryBytes f.img.seqBlocks
  let t := s.pinWrite f.pins va (leBytes 1 st.1)
  let t := t.when (decide (st.1 = 1)) fun t => t.pinWrite f.pins (va + 1) [0]
  let t := t.pinWrite f.pins (va + 2)
    (leBytes 2 st.2 ++ leBytes 12 0 ++ blockWords (s.part f.part).poolVa f.img.seqBlocks x)
  t.forEach f.img.beads fun t b => t.writeScratch b (f.img.slotWordOffset + 8 * k) (leBytes 8 (st.1 + st.2 % 65536 * 256))

/-- The slot table and the slot words. -/
def State.writeSlots (s : State) (f : Firing) (slots : List (Nat × Nat)) : State :=
  if f.img.seq then s.forEach (List.range f.img.batchSlots) fun t k => t.writeSlot f slots k else s

/-- Run-ahead at the start of a step (R79): what served a command in the slot it was planned for is kept, the rest counts as
unwritten, and no run-ahead list goes on. -/
def State.takeAhead (s : State) (h : Nat) (slots : List (Nat × Nat)) : State :=
  let keep := ((s.firing h).map fun f => f.ahead.filter fun a => slots.contains (a.slot, a.cid)).getD []
  (s.cancelAhead h fun _ => true).modFiring h fun f => { f with ahead := keep }

/-- An adopted format takes effect (R202). -/
def RuleState.adopt (r : RuleState) : RuleState := if r.next = 0 then r else { r with fmt := r.next - 1, next := 0 }

/-! ## Histogram records (R189, R190, R201) -/

/-- A cleared record. -/
def HistRecord.empty : HistRecord := ⟨[], 0, false⟩

/-- Two records together; their counters saturate. -/
def HistRecord.join (r q : HistRecord) : HistRecord :=
  let total := fun b => Sparse.read 0 r.bins b + Sparse.read 0 q.bins b
  { bins := (List.range 32).foldl (fun m b => Sparse.write 0 m b (sat64 (total b))) [],
    steps := r.steps + q.steps,
    sat := r.sat || q.sat || (List.range 32).any fun b => decide (0xFFFFFFFFFFFFFFFF < total b) }

/-- The record of a unit on a frame, the last step's counts with it, as HIST_READ sees it (R189). -/
def Firing.record (f : Firing) (k u : Nat) : HistRecord :=
  (Sparse.read HistRecord.empty f.hist (k * 16 + u)).join (Sparse.read HistRecord.empty f.late (k * 16 + u))

/-- Clear a record. -/
def Firing.clearRecord (f : Firing) (k u : Nat) : Firing :=
  { f with hist := Sparse.erase f.hist (k * 16 + u), late := Sparse.erase f.late (k * 16 + u) }

/-- A unit's counts of the step's beads. -/
def latched (u : Nat) (xs : List Bead) : HistRecord where
  bins := (List.range 32).foldl (fun m b =>
    Sparse.write 0 m b (sat64 (xs.foldl (fun n x => n + Sparse.read 0 x.hist (u * 32 + b)) 0))) []
  steps := 1
  sat := xs.any fun x => Sparse.read false x.histSat u

/-- HIST_MERGE (R189): every unit's record on every frame of the firing's beads; the bead counters return to 0. -/
def State.mergeHist (s : State) (h : Nat) : State :=
  match s.firing h with
  | none => s
  | some f =>
    let keys := (maskFrames f.img.beadFrames).flatMap fun k => (List.range 16).map fun u => (k, u)
    let xs := fun k => (f.img.beads.filter fun b => decide (b.frame = k)).map s.bead
    let t := s.modFiring h fun f => { f with
      hist := keys.foldl (fun m q => Sparse.write HistRecord.empty m (q.1 * 16 + q.2) (f.record q.1 q.2)) f.hist,
      late := keys.foldl (fun m q => Sparse.write HistRecord.empty m (q.1 * 16 + q.2) (latched q.2 (xs q.1))) [] }
    t.forEach f.img.beads fun t b => t.modBead b fun x => { x with hist := [], histSat := [] }

/-- Counts of a bin that a rule reads: over the records of its unit on its frames, without the last step's. -/
def Firing.ruleBins (f : Firing) (r : List Word64) : Sparse Nat :=
  (List.range 32).foldl (fun m b => Sparse.write 0 m b ((maskFrames (ruleFrames r)).foldl (fun n k =>
    n + Sparse.read 0 (Sparse.read HistRecord.empty f.hist (k * 16 + ruleUnit r)).bins b) 0)) []

/-- Sum of two sets of bins. -/
def addBins (a b : Sparse Nat) : Sparse Nat :=
  (List.range 32).foldl (fun m k => Sparse.write 0 m k (Sparse.read 0 a k + Sparse.read 0 b k)) []

/-- The kiln master reads, with clear, the records of every rule: they hold whole steps up to the one before the last, whose
counts stay in the cleared record (R190, R201, R202). -/
def Firing.readRules (f : Firing) : Firing :=
  let rs := List.zip f.img.rules f.rules
  let g := { f with rules := rs.map fun r => { r.2 with read := some (addBins (r.2.read.getD []) (f.ruleBins r.1)) } }
  rs.foldl (fun g r => (maskFrames (ruleFrames r.1)).foldl (fun g k =>
    { g with hist := Sparse.erase g.hist (k * 16 + ruleUnit r.1) }) g) g

/-- The boundary after an EVAL_STEPS-th step since entry (R201). -/
def Firing.evalDue (f : Firing) : Bool := decide (f.img.rules ≠ [] ∧ f.stepNo ≠ 0 ∧ f.stepNo % f.img.evalSteps = 0)

/-- What the boundary does for the gradient rules: formats adopted before take effect, then the kiln master, if there is one, reads
the records that are due; their evaluation takes effect at the next boundary at the earliest (R201, R202; log 99). -/
def State.boundaryRules (s : State) (h : Nat) : State :=
  let t := s.modFiring h fun f => { f with rules := f.rules.map RuleState.adopt }
  t.when (t.hasMaster && !t.master.moving) fun t => t.modFiring h fun f => if f.evalDue then f.readRules else f

/-- The step starts with its commands in their slots: words, beads, and the pair events kept for it (R38, R111, R264). -/
def State.beginStep (s : State) (h : Nat) (slots : List (Nat × Nat)) : State :=
  let s := s.boundaryRules h
  match s.firing h with
  | none => s
  | some f =>
    let t := s.takeAhead h slots
    let t := t.forEach f.img.beads fun t b => t.modBead b fun x => x.startStep (f.img.ctxAt b (slotMask slots))
    let t := ((t.writeFormats f).writeRotation f).writeSlots f slots
    let t := t.modFiring h fun f => { f with step := some ⟨slots, false, [], [], 0⟩, keptEvents := [], sent := [] }
    let t := t.forEach f.keptEvents fun t e => t.bump e.1 e.2
    t.forEach (maskFrames f.img.beadFrames) fun t k => t.modFrame k fun x => { x with owed := x.owed.filter (· ≠ h) }

/-! ## Sequences (R216 to R220) -/

/-- Take `k` free blocks of a pool; which ones is left open (log 42). -/
def takeBlocks (free : Nat) : Nat → List Nat → List Nat × List Nat
  | 0, bs => ([], bs)
  | k + 1, bs =>
    let i := Config.blockPick (free + k) % max 1 bs.length
    match bs[i]? with
    | none => ([], bs)
    | some b =>
      let r := takeBlocks free k (bs.eraseIdx i)
      (b :: r.1, r.2)

/-- The PENDING sequences of the partition's other firings, with their firings. -/
def State.otherPending (s : State) (f : Firing) : List (Firing × Cmd) :=
  (s.firings.filter fun g => decide (g.part = f.part ∧ g.handle ≠ f.handle)).flatMap fun g =>
    (s.runsOf g fun p => decide (p = .pendingSeq)).map fun c => (g, c)

/-- A sequence may take its blocks now (R218, R220). -/
def State.mayJoin (s : State) (f : Firing) (c : Cmd) : Bool :=
  let others := s.otherPending f
  let free := (s.part f.part).blocks.length
  let live := others.filter fun q => decide (q.1.status ≠ .preempted)
  decide (f.img.seqBlocks ≤ free) && (decide (others = []) ||
    (others.all (fun q => decide (c.id < q.2.id) || decide (q.1.status = .preempted)) &&
      decide (f.img.seqBlocks + live.foldl (fun n q => n + q.1.img.seqBlocks) 0 ≤ free)))

/-- A sequence joins a slot with its blocks (R216, R217). -/
def State.joinSeq (s : State) (f : Firing) (c : Cmd) (slot : Nat) : State :=
  let r := takeBlocks s.free f.img.seqBlocks (s.part f.part).blocks
  let t := ({ s with free := s.free + f.img.seqBlocks } : State).modPart f.part fun p => { p with blocks := r.2 }
  t.modCmd c.id fun x => { x with
    phase := .inSlot slot, blocks := r.1, steps := 0 }

/-- A deferral (R220); entry to PENDING cancels the sequence's run-ahead (R225). -/
def State.deferSeq (s : State) (f : Firing) (c : Cmd) : State :=
  ((s.cancelAhead f.handle fun k => decide (k = c.id)).modCmd c.id fun x => { x with phase := .pendingSeq }).modPart f.part fun p => { p with deferrals := inc32 p.deferrals }

/-- Offer free slots in slot order to sequences in order, up to `k` joins; the first that cannot join ends it (R218). -/
def State.offerSlots (s : State) (f : Firing) : Nat → List Nat → List Cmd → State
  | 0, _, _ => s
  | _, [], _ => s
  | _, _, [] => s
  | k + 1, slot :: slots, c :: cs =>
    if s.mayJoin f c then (s.joinSeq f c slot).offerSlots f k slots cs else s.deferSeq f c

/-- The batch slot of a command, if it has one. -/
def Cmd.slotOf (c : Cmd) : Option Nat :=
  match c.phase with
  | .inSlot k => some k
  | _ => none

/-- Slots and commands of a firing's joined sequences. -/
def State.joinedSlots (s : State) (f : Firing) : List (Nat × Nat) :=
  (s.runsOf f CmdPhase.joined).filterMap fun c => c.slotOf.map fun k => (k, c.id)

/-- SEQUENCE_JOIN (R218): the pending sequence first, then waiting ones; none while a withdrawal is accepted (R225).
HIST_POOL_FREE shows the blocks then free (R220). -/
def State.joinAll (s : State) (f : Firing) : State :=
  let used := (s.joinedSlots f).map fun q => q.1
  let free := (List.range f.img.batchSlots).filter fun k => !used.contains k
  let queue := (s.runsOf f fun p => decide (p = .pendingSeq)) ++ s.runsOf f fun p => decide (p = .waiting)
  let t := if f.withdrawing then s else s.offerSlots f f.img.joinMax free queue
  t.modPart f.part fun p => { p with poolFree := p.blocks.length }

/-! ## RUN_AHEAD_LIST (R76 to R79, R225) -/

/-- The slot that sequence `cid` will join at the next boundary if nothing changes: offers as `offerSlots` makes them. -/
def State.plannedJoin (s : State) (f : Firing) (cid : Nat) : Nat → List Nat → List Cmd → Option Nat
  | 0, _, _ => none
  | _, [], _ => none
  | _, _, [] => none
  | k + 1, slot :: slots, c :: cs =>
    if !s.mayJoin f c then none
    else if c.id = cid then some slot
    else (s.joinSeq f c slot).plannedJoin f cid k slots cs

/-- A joined sequence stays for another step unless its step program leaves. -/
def Firing.stays (f : Firing) (c : Cmd) : Bool := decide (c.steps + 1 < min c.seqSteps f.img.maxSteps)

/-- The batch slot that a waiting command of a firing will have at the next boundary if nothing changes: its place among those
that wait (R38), or for a sequence the slot that it will join (R218, R225). -/
def State.plannedSlot (s : State) (f : Firing) (cid : Nat) : Option Nat :=
  let waiting := s.runsOf f fun p => decide (p = .waiting)
  if f.withdrawing then none
  else if f.img.seq then
    let used := (s.runsOf f CmdPhase.joined).filterMap fun c => if f.stays c then c.slotOf else none
    let free := (List.range f.img.batchSlots).filter fun k => !used.contains k
    (s.freeBlocks f.part f.releasing).plannedJoin f cid f.img.joinMax free
      ((s.runsOf f fun p => decide (p = .pendingSeq)) ++ waiting)
  else (waiting.take f.img.batchSlots).findIdx? fun c => decide (c.id = cid)

/-- RUN_AHEAD_LIST (R76, R79, R225): while a step runs, list `l.plan` of a command that the next step will take in the list's batch
slot, drawn from that command's request block, joins the unit of its shard. -/
def execRunAheadList (frame unit cid : Nat) (l : AheadDraw) (s : State) : Outcome :=
  within (gatherOk frame unit)
    (s.when (s.up && !(s.frame frame).fenced) fun s =>
      match s.cmd cid with
      | none => s
      | some c =>
        match s.firing c.handle with
        | none => s
        | some f =>
          match s.planFor f frame unit l.plan with
          | none => s
          | some (q, t) =>
            let d := s.drawBlocks f frame q.table [some c.op1.toNat] l.host
            let x := listOf f l.plan q (planBytes q true (d.indices.filter (t.desc.routes q.shard)))
            s.when (decide (f.part = c.port) && f.step.isSome && q.runAhead && q.slot.isSome &&
                decide (q.slot = s.plannedSlot f cid) && d.translated && decide (d.poison = none) && decide (x.indices ≠ []) &&
                !(f.ahead.any fun a => decide (a.cid = cid ∧ a.l.plan = l.plan))) fun s =>
              let g := (s.frame frame).gatherUnit unit
              (s.setGather frame unit { g with
                lists := g.lists ++ [⟨x, g.nextNum, false, 0, some cid, [], [], []⟩], nextNum := g.nextNum + 1 }).modFiring
                f.handle fun f => { f with ahead := f.ahead ++ [⟨cid, q.slot.getD 0, x, []⟩] })

/-! ## STEP_BOUNDARY -/

/-- Carry operations of the firing that are not applied yet, here or on the primary (R89, R96). -/
def State.carries (s : State) (h : Nat) : Bool :=
  (s.frames.any fun x => x.2.carry.any fun u => u.2.any fun j => carryFrom j.src h) ||
    (s.twin.fwds.any fun w => carryFrom w.2.2.2 h) || s.heldOps.any fun o => carryFrom o.src h

/-- Some carry operation of a step that was abandoned has still to be applied (R259, R426). -/
def State.leftovers (s : State) : Bool := s.firings.any fun f => f.step.isNone && s.carries f.handle

/-- A step may start: the firing runs, no step does, no carry operation of an abandoned step is left to apply (R259), and every
frame of its beads is present, not held for a quiescent point and has its kiln (R39, R363, R405); each named frame has reached
the floor. -/
def State.atBoundary (s : State) (f : Firing) : Bool :=
  decide (f.status = .running ∧ f.step = none) && !s.mustLeave f && !s.leftovers &&
  (maskFrames f.img.beadFrames).all (fun k =>
    !(s.frame k).fenced && !s.frameHeld k && !(s.frame k).kiln.absent) &&
  f.img.namedFrames.all fun k => decide (f.img.floorMops ≤ (s.frame k).cone.rate)

/-- Waiting commands are taken into slots in acceptance order (R27, R38). -/
def State.takeWaiting (s : State) (f : Firing) : List (Nat × Nat) × State :=
  let cs := (s.runsOf f fun p => decide (p = .waiting)).take f.img.batchSlots
  let slots := List.zip (List.range cs.length) (cs.map fun c => c.id)
  (slots, s.forEach slots fun t q => t.modCmd q.2 fun x => { x with phase := .inSlot q.1 })

/-- The step of a firing with work starts; with none, released blocks are free at once, and HIST_POOL_FREE shows them (R38,
R218 to R220). -/
def State.boundary (s : State) (f : Firing) : State :=
  if !s.hasWork f then
    let t := (s.freeBlocks f.part f.releasing).modFiring f.handle fun f => { f with releasing := [] }
    t.when f.img.seq fun t => t.modPart f.part fun p => { p with poolFree := p.blocks.length }
  else if f.img.seq then
    let t := s.joinAll f
    t.beginStep f.handle (t.joinedSlots f)
  else
    let r := s.takeWaiting f
    r.2.beginStep f.handle r.1

/-- SEQUENCE_LEAVE (R218, R219, R221): sequences whose last step has ended give up their slots, and their blocks are released. -/
def State.leaveSlots (s : State) (h : Nat) : State :=
  s.modFiring h fun f => { f with releasing := f.releasing ++ f.leaving.flatMap (fun q => q.2), leaving := [] }

/-- STEP_BOUNDARY (R38, R42, R218, R225): the leaves first, then a pending swap, then joins or the taking of waiting commands, and
the step. -/
def execStepBoundary (handle : Nat) (s : State) : Outcome :=
  within true (s.when s.up fun s =>
    match s.firing handle with
    | none => s
    | some f => s.when (s.atBoundary f) fun s =>
      let t := (s.leaveSlots handle).boundarySwap handle
      match t.firing handle with
      | none => t
      | some g => t.when (t.atBoundary g) fun t => t.boundary g)

/-! ## What a step still has to do (R113, R193) -/

/-- Every engine instruction that a bead issued has completed. -/
def Bead.idle (x : Bead) : Bool :=
  decide (x.mmas = [] ∧ x.vec.chains = [] ∧ x.vec.done = [] ∧ x.injects = [] ∧ x.mvs = 0) &&
    x.ports.all fun p => decide (p.2.uses = [] ∧ p.2.landed = [])

/-- A rod's mover has no request. -/
def Rod.idle (x : Rod) : Bool := x.chans.all fun c => decide (c.2.reqs = [])

/-- Gather lists of the step that a frame's units still hold. -/
def Frame.gathers (x : Frame) (h : Nat) : Bool :=
  x.gather.any fun u => u.2.lists.any fun l => decide (l.l.handle = h ∧ l.ahead = none)

/-- Every engine instruction and mover request that a firing's beads issued, and every gather list in progress, is complete
(R193). -/
def State.enginesDone (s : State) (f : Firing) : Bool :=
  (f.img.beads.all fun b => (s.bead b).idle) && (f.img.rods.all fun r => (s.rod r).idle) &&
    !s.frames.any fun x => x.2.gathers f.handle

/-- Engines, movers, gathers and coil passes of a firing's step are all done (R113). -/
def State.worksDone (s : State) (f : Firing) : Bool :=
  s.enginesDone f && decide (f.coils = []) &&
    (List.range f.img.contents.plan.length).all fun k => f.sent.contains k || (s.planUnit f k).isNone

/-- Every context of the firing's beads passes a test. -/
def State.allCtxs (s : State) (f : Firing) (p : Ctx → Bool) : Bool :=
  f.img.beads.all fun b => (List.range 8).all fun c => p ((s.bead b).ctx c)

/-! ## FORWARD_PASS_END, TIE_PASS_START -/

/-- The pass `from'` of a step ends when every context is at its split, waiting for nothing, or has ended, and all the work that
they issued is done; all contexts are released together (R193, R212). -/
def State.passEnd (s : State) (f : Firing) (from' : Nat) (splits : Thread → Bool) : State :=
  match f.step with
  | none => s
  | some st =>
    s.when (decide (st.pass = from') && f.img.contents.threads.any splits &&
        s.allCtxs f (fun x => x.ended || (x.atSplit from' && x.waiting.isNone)) && s.enginesDone f) fun s =>
      s.modFiring f.handle fun f => { f with step := f.step.map fun st => { st with pass := from' + 1 } }

/-- FORWARD_PASS_END (R192, R193). -/
def execForwardPassEnd (handle : Nat) (s : State) : Outcome :=
  within true (s.when s.up fun s => match s.firing handle with
    | some f => s.passEnd f 0 fun t => t.passSplit.isSome
    | none => s)

/-- TIE_PASS_START (R212). -/
def execTiePassStart (handle : Nat) (s : State) : Outcome :=
  within true (s.when s.up fun s => match s.firing handle with
    | some f => s.when f.img.tied fun s => s.passEnd f 1 fun t => t.tieSplit.isSome
    | none => s)

/-! ## GRAD_RULE_EVAL (R201, R202) -/

/-- The top bin after trimming: from `t` downwards. -/
def topBin (bin : Nat → Nat) (trim n : Nat) : Nat → Nat → Nat
  | 0, _ => 0
  | t + 1, above =>
    if 0 < t ∧ (above + bin (t + 1)) * 65536 ≤ trim * n then topBin bin trim n t (above + bin (t + 1)) else t + 1

/-- Counts lost below a window of `span` bins under `t` (R201): bin 1, and bins 2 to t − span. -/
def lostBelow (bin : Nat → Nat) (t span : Nat) : Nat :=
  bin 1 + ((List.range 32).filter fun b => decide (2 ≤ b ∧ b + span ≤ t)).foldl (fun n b => n + bin b) 0

/-- evaluate of R201: 0 FP8 E4M3, 1 FP8 E5M2, 5 BF16. -/
def evaluateRule (r : List Word64) (bin : Nat → Nat) : Nat :=
  let n := ((List.range 31).foldl (fun n i => n + bin (i + 1)) 0)
  let t := topBin bin (ruleField r 0xC 2) n 29 0
  let limit := ruleField r 0xE 2 * n
  if 0 < bin 30 + bin 31 then 5
  else if lostBelow bin t (ruleField r 0xA 1) * 65536 ≤ limit then 0
  else if lostBelow bin t (ruleField r 0xB 1) * 65536 ≤ limit then 1
  else 5

/-- Formats from narrow to wide (R202): E4M3, E5M2, BF16, which is the order of their codes. -/
def widestOf (rs : List Nat) : Nat := rs.foldl max 0

/-- The decision of R202 on a result, with NARROW_HOLD `hold`: wider at once; narrower when each of the last `hold` results
was narrower than the format in force, and then the widest of them (log 45). -/
def RuleState.settle (r : RuleState) (hold result : Nat) : RuleState :=
  let last := (r.narrow ++ [result]).drop (r.narrow.length + 1 - hold)
  let r := { r with narrow := last }
  if r.fmt < result then { r with next := result + 1 }
  else if last.length = hold ∧ last.all (fun x => decide (x < r.fmt)) then { r with next := widestOf last + 1 }
  else r

/-- One evaluation: the counts read join the running sums, which decide once bins 1 to 31 hold MIN_COUNT elements. -/
def RuleState.evaluate (r : RuleState) (rule : List Word64) : RuleState :=
  match r.read with
  | none => r
  | some bins =>
    let sums := addBins r.sums bins
    let bin := fun b => Sparse.read 0 sums b
    let n := ((List.range 31).foldl (fun n i => n + bin (i + 1)) 0)
    if n < ruleField rule 0x10 8 then { r with read := none, sums := sums }
    else RuleState.settle { r with read := none, sums := [] } (ruleField rule 0x18 1) (evaluateRule rule bin)

/-- GRAD_RULE_EVAL (R201, R202): one rule of a firing, by its place in the section. -/
def execGradRuleEval (handle rule : Nat) (s : State) : Outcome :=
  within true (s.when (s.up && s.hasMaster) fun s => s.modFiring handle fun f =>
    match f.img.rules[rule]? with
    | none => f
    | some r => { f with rules := f.rules.modify rule fun x => x.evaluate r })

/-! ## STEP_END (R113) -/

/-- Code of a command of a step by the order of R48. -/
def stepCode (faulted tripped atRisk : Bool) : Nat :=
  if faulted then 4 else if tripped then 5 else if atRisk then 6 else 0

/-- A sequence leaves after a step (R221): LEAVE written as 1, its last step by SEQ_STEPS, or its last by MAX_STEPS. -/
def State.leaves (s : State) (f : Firing) (c : Cmd) (slot : Nat) : Bool :=
  let va := f.img.slotTable + slot * slotEntryBytes f.img.seqBlocks
  decide (s.pinBytes f.pins (va + 1) 1 = [1#8]) || decide (c.steps + 1 = c.seqSteps) ||
    decide (f.img.maxSteps ≤ c.steps + 1)

/-- What a step leaves on one of its commands: it completes, or as a sequence goes on (R48, R221, R223). -/
def State.endCmd (s : State) (f : Firing) (st : Step) (q : Nat × Nat) : State :=
  match s.cmd q.2 with
  | none => s
  | some c =>
    let x := { c with
      steps := c.steps + 1,
      faulted := c.faulted || st.faulted,
      tripped := c.tripped || st.trips.contains q.1,
      atRisk := c.atRisk || c.met f.img }
    let t := s.modCmd c.id fun _ => x
    if f.img.seq ∧ !s.leaves f c q.1 then t
    else
      (t.when f.img.seq fun t => t.modFiring f.handle fun f => { f with leaving := f.leaving ++ [(q.1, c.blocks)] }).complete c.id
        (stepCode x.faulted x.tripped x.atRisk) 0 x.runResult

/-- A step that ends lets go of what waits for it: completions of ROW_SWITCH (R93) and slots not to be written (R95). -/
def State.stepGone (s : State) (h : Nat) : State :=
  State.finishRows { s with
    cmds := s.cmds.map fun c : Cmd => { c with steps0 := c.steps0.filter fun k => decide (k ≠ h) },
    slotsOld := s.slotsOld.map fun u : SlotUse => { u with steps := u.steps.filter fun k => decide (k ≠ h) } }

/-- Accounting of one step (R359, R360): times, bytes and energy are measured (log 5). -/
def AcctRecord.step (r : AcctRecord) (rods free : Nat) : AcctRecord :=
  let r := { r with steps := sat64 (r.steps + 1) }
  if r.kind = 1 then { r with
    sum := sat64 (r.sum + rods * Config.freeTime free),
    max := sat64 (r.max + Config.freeBytes free),
    last := sat64 (r.last + Config.freeEnergy free) }
  else r

/-- A firing without beads has no frame whose quiescent point could end its stay: a withdrawal or pre-emption that waits takes
effect when its step ends (log 89). -/
def State.endBeadless (s : State) (h : Nat) : State :=
  match s.firing h with
  | none => s
  | some f =>
    if f.img.beadFrames ≠ 0 then s
    else if f.withdrawing then s.removeFiring h
    else s.when (decide (s.kilnCmds f 0x05 ≠ [])) fun s => s.applyPreempt h

/-- The end of a firing's step: histogram records, blocks, its commands by `g`, waiters, the accounting record. -/
def State.endStep (s : State) (f : Firing) (g : State → State) : State :=
  let h := f.handle
  let t := s.mergeHist h
  let t := g ((t.freeBlocks f.part f.releasing).modFiring h fun f => { f with releasing := [] })
  let ended := fun c => (f.step.map fun st => st.slots.any fun q => decide (q.2 = c)).getD false
  let t := t.modFiring h fun f => { f with
    step := none, stepNo := f.stepNo + 1, stepsRun := f.stepsRun + 1, ahead := f.ahead.filter fun a => !ended a.cid, oldTables := [] }
  let t := t.stepGone h
  (t.modAcct f fun r => r.step f.img.rods.length t.free).tick.endBeadless h

/-- STEP_END (R113): every context has ended, and every instruction, gather, carry operation and coil pass is complete. -/
def execStepEnd (handle : Nat) (s : State) : Outcome :=
  within true (s.when s.up fun s =>
    match s.firing handle with
    | none => s
    | some f =>
      match f.step with
      | none => s
      | some st =>
        s.when (s.allCtxs f (fun x => x.ended) && s.worksDone f && !s.carries handle) fun s =>
          s.endStep f fun t => t.forEach st.slots fun t q => t.endCmd f st q)

end Sys2Proof.Machine
end

