-- ==== Sys2Proof/Machine/Rods.lean ====
section
/-! DEFINITION. Rods that fail, the steps that they end, tests and liveness: ROD_FAIL, LIVENESS_PROBE, ROD_TEST_START,
SPARE_ROD_TEST, ROD_TEST_DONE, and the substitution of a failed rod (R11, R12, R424 to R430). -/

namespace Sys2Proof.Machine

/-! ## STEP_ABANDON (R426, R427) -/

/-- A bead whose engines stop. -/
def Bead.stop (x : Bead) : Bead :=
  { x with
    ctxs := x.ctxs.map fun c => (c.1, { c.2 with ended := true, waiting := none }),
    mmas := [], vec := VecEngine.reset, ports := [], injects := [], mvs := 0 }

/-- A command of an abandoned step (R427). -/
def State.abandonCmd (s : State) (f : Firing) (q : Nat × Nat) : State :=
  match s.cmd q.2 with
  | none => s
  | some c =>
    let again := decide (f.img.mode = 0) && !f.img.carryFlag && !f.img.seq && !c.abandoned
    if again then s.modCmd c.id fun x => { x with phase := .waiting, abandoned := true }
    else (s.freeBlocks f.part c.blocks).complete c.id 4 0 c.runResult

/-- STEP_ABANDON: the engines of the firing's rods stop, its lists, passes and transfers end, and so does the step. -/
def State.abandonStep (s : State) (h : Nat) : State :=
  match s.firing h with
  | none => s
  | some f =>
    match f.step with
    | none => s
    | some st =>
      let t := s.forEach f.img.beads fun t b => t.modBead b Bead.stop
      let t := t.forEach f.img.rods fun t r => t.setRod r Rod.reset
      let t := t.forEach (List.range 20) fun t k => t.modFrame k fun x => { x with gather := x.gather.map fun u =>
        (u.1, { u.2 with lists := u.2.lists.filter fun l => !(decide (l.l.handle = h ∧ l.ahead = none)) }) }
      let t := ({ t with fabric := { t.fabric with
        outstanding := t.fabric.outstanding.filter fun o => decide (o.handle ≠ h) } } : State).settleTlb
      let t : State := { t with heldOps := t.heldOps.filter fun o => !carryFrom o.src h }
      let t := (t.modFiring h fun f => { f with coils := [] }).dropFiringWaiters f.part h
      (t.endStep f fun t => t.forEach st.slots fun t q => t.abandonCmd f q).modPart f.part fun p =>
        { p with abandoned := inc32 p.abandoned }

/-! ## Failure and substitution (R12, R425) -/

/-- Change a rod group of a frame. -/
def State.modGroup (s : State) (f g : Nat) (h : Group → Group) : State :=
  s.modFrame f fun x => x.setGroup g (h (x.group g))

/-- A rod by its logical position fails: it is recorded in the rod map and waits for substitution (R12, R425). -/
def State.failRod (s : State) (r : RodId) : State :=
  match ((s.frame r.frame).group r.group).phys r.pos with
  | none => s
  | some p =>
    (s.modGroup r.frame r.group fun g => { g with
      failed := if g.failed.contains p then g.failed else g.failed ++ [p],
      due := if g.due.contains r.pos then g.due else g.due ++ [r.pos],
      missed := Sparse.write 0 g.missed r.pos 0 }).requestAction (BitVec.ofNat 20 (2 ^ r.frame)) .substitute

/-- A step that uses the rod is abandoned. -/
def State.abandonRod (s : State) (r : RodId) : State :=
  match s.firings.find? fun f => f.img.rods.contains r && f.step.isSome with
  | some f => s.abandonStep f.handle
  | none => s

/-- The rod's frame has a kiln that acts. -/
def State.kilnActs (s : State) (f : Nat) : Bool := s.up && !(s.frame f).fenced && !(s.frame f).kiln.absent

/-- A corrected error of a rod's scratch or rod pool raises ROD_CE_COUNT of the partition that holds its frame (R425, R430). -/
def State.countRodCe (s : State) (f : Nat) : State :=
  s.withSome (s.frameOwner f) fun s n => s.modPart n fun p => { p with rodCe := inc32 p.rodCe }

/-- ROD_FAIL (R425, R426): under the first two causes a running step that uses the rod is abandoned. An error that the rod's SECDED
code corrects fails no rod and is counted. -/
def execRodFail (r : RodId) (cause : RodCause) (s : State) : Outcome :=
  within r.ok (s.when (s.up && !(s.frame r.frame).fenced) fun s =>
    if cause = .corrected then s.countRodCe r.frame
    else (s.failRod r).when (decide (cause = .memory ∨ cause = .liveness)) fun s => s.abandonRod r)

/-- LIVENESS_PROBE (R425): the third successive miss fails the rod. -/
def execLivenessProbe (r : RodId) (answered : Bool) (s : State) : Outcome :=
  within r.ok (s.when (s.kilnActs r.frame) fun s =>
    let g := (s.frame r.frame).group r.group
    if (g.phys r.pos).isNone ∨ g.due.contains r.pos then s
    else
      let n := if answered then 0 else Sparse.read 0 g.missed r.pos + 1
      if n < 3 then s.modGroup r.frame r.group fun g => { g with missed := Sparse.write 0 g.missed r.pos n }
      else (s.failRod r).abandonRod r)

/-- ROD_SUBSTITUTE (R12, R114, R424): the first spare of the group takes a failed position, zeroed and reloaded; a rod that
only a mismatch failed goes to its test. With no spare the position is missing (log 47). -/
def State.substituteRod (s : State) (f gi pos : Nat) : State :=
  let g := (s.frame f).group gi
  let r : RodId := ⟨f, gi, pos⟩
  let old := (g.phys pos).toList.filter fun p => !g.failed.contains p
  match g.spares with
  | p :: ps =>
    let t := s.modGroup f gi fun g => { g with
      map := Sparse.write pos g.map pos p, spares := ps, testing := (g.testing.filter (· ≠ p)) ++ old }
    (match t.firings.find? fun x => x.rods.contains r with
    | some x => t.enterRod x r
    | none => t.zeroRod r)
  | [] => s.modGroup f gi fun g => { g with missing := g.missing ++ [pos], testing := g.testing ++ old }

/-- Every substitution that is due on a frame; whether some position went missing. -/
def State.substituteFrame (s : State) (f : Nat) : State × Bool :=
  let t := s.forEach (List.range 15) fun t gi =>
    let due := ((t.frame f).group gi).due
    (t.forEach due fun t pos => t.substituteRod f gi pos).modGroup f gi fun g => { g with due := [] }
  (t, (List.range 15).any fun gi =>
    decide (((s.frame f).group gi).missing.length < ((t.frame f).group gi).missing.length))

/-! ## Tests (R428 to R430) -/

/-- The write of ROD_TEST_CTRL (R429, R446): a rod that does not exist discards it whole; a START that may not run is
refused. -/
def State.writeRodTest (s : State) (n : Nat) (w : Word64) : State :=
  let r := RodId.ofRef (w.toNat % 65536)
  if !r.ok then s.modPort n fun x => { x with setupErrs := inc32 x.setupErrs }
  else
    let t := s.modPart n fun p => { p with testRod := BitVec.ofNat 16 w.toNat }
    if !w.getLsbD 16 then t
    else
      let refuse := t.modPart n fun p => { p with testRefused := true }
      match ((t.frame r.frame).group r.group).phys r.pos with
      | none => refuse
      | some p =>
        if t.rodHeld r ∨ !inMask (t.part n).frames r.frame ∨ (t.part n).testState = 1 then refuse
        else (t.modPart n fun q => { q with testState := 1, testOf := some (r.frame, r.group, p) }).modGroup r.frame r.group
          fun g => { g with testing := if g.testing.contains p then g.testing else g.testing ++ [p] }

/-- ROD_TEST_START: a write of ROD_TEST_CTRL through a port's set-up BAR. -/
def execRodTestStart (port : Nat) (value : Word64) (s : State) : Outcome :=
  within (portOk port) (s.when (s.up && decide ((s.port port).state ≠ 0) && s.partExists port) fun s => s.writeRodTest port value)

/-- SPARE_ROD_TEST (R428): the kiln tests a spare. -/
def execSpareRodTest (frame group phys : Nat) (s : State) : Outcome :=
  within (physOk frame group phys) (s.when (s.kilnActs frame) fun s =>
    s.modGroup frame group fun g =>
      if g.spares.contains phys ∧ !g.testing.contains phys then { g with testing := g.testing ++ [phys] } else g)

/-- The logical position that a physical rod serves. -/
def Group.posOf (g : Group) (p : Nat) : Option Nat := (List.range 125).find? fun i => decide (g.phys i = some p)

/-- What a test's result does to the rod: a spare stays or is mapped out, a rod mapped out for its test becomes a spare or
stays out, and a rod in place that fails is failed (R424, R425, R428). -/
def State.judgeRod (s : State) (f gi p : Nat) (pass : Bool) : State :=
  let g := (s.frame f).group gi
  let t := s.modGroup f gi fun g => { g with testing := g.testing.filter (· ≠ p) }
  let out := fun g : Group => { g with failed := if g.failed.contains p then g.failed else g.failed ++ [p] }
  match g.posOf p with
  | some pos => if pass then t else t.failRod ⟨f, gi, pos⟩
  | none =>
    if pass then
      t.modGroup f gi fun g => if g.spares.contains p ∨ g.failed.contains p then g else { g with spares := g.spares ++ [p] }
    else t.modGroup f gi fun g => out { g with spares := g.spares.filter (· ≠ p) }

/-- ROD_TEST_DONE (R428 to R430). -/
def execRodTestDone (frame group phys : Nat) (pass : Bool) (s : State) : Outcome :=
  within (physOk frame group phys) (s.when (s.kilnActs frame && ((s.frame frame).group group).testing.contains phys) fun s =>
    (s.judgeRod frame group phys pass).forEach (List.range 4) fun t n => t.modPart n fun p =>
      if p.testState = 1 ∧ p.testOf = some (frame, group, phys) then
        { p with testState := if pass then 2 else 3, testOf := none }
      else p)

end Sys2Proof.Machine
end

