-- ==== Sys2Proof/Machine/Greenware.lean ====
section
/-! DEFINITION. Greenware banks: change lists, CHECK, COMMIT and its application on each frame, GW_DISCARD (R50 to R53, R97,
R213, R214, R285, R287, R340, R345 to R349, R358, R359, R366, R374, R375, R408 to R415, R463, R465). -/

namespace Sys2Proof.Machine

/-! ## Change lists (R409, R410) -/

/-- An entry of a change list. -/
def gwEntry (bs : List Byte) : GwEntry where
  struct := fieldAt bs 0 1
  op := fieldAt bs 1 1
  index := fieldAt bs 2 2
  frames := BitVec.ofNat 32 (fieldAt bs 4 4)
  reserved := !zeroAt bs 8 8
  data := (bs.drop 16).take 64

/-- Pages of a range that carry PIN and belong to the partition, readable. -/
def State.bankRange (s : State) (n va len : Nat) : Option (List PinPage) :=
  match s.pinnedRange n va len with
  | some pins => if (s.pinBad pins va len).isSome then none else some pins
  | none => none

/-- The staged change list of a partition bank, as CHECK copies it. -/
def State.readList (s : State) (n : Nat) : Option (List GwEntry) :=
  let r := (s.part n).staged
  let va := r.listBase.toNat * 64
  match s.bankRange n va (80 * r.listCount) with
  | none => none
  | some pins => some ((List.range r.listCount).map fun i => gwEntry (s.pinBytes pins (va + 80 * i) 80))

/-- Frames of an entry. -/
def GwEntry.names (e : GwEntry) (f : Nat) : Bool := e.frames.getLsbD f

/-- A frame mask without reserved bits. -/
def GwEntry.framesOk (e : GwEntry) : Bool := decide (e.frames.toNat < 2 ^ 20)

/-! ## Table descriptors (R50 to R52) -/

/-- The descriptor in an entry's data. -/
def tableDesc (d : List Byte) : TableDesc where
  table := fieldAt d 0 2
  rowElements := fieldAt d 2 2
  rows := fieldAt d 4 4
  shardCount := fieldAt d 8 2
  shardMode := fieldAt d 0xA 1
  blockShift := fieldAt d 0xB 1
  allowed := BitVec.ofNat 8 (fieldAt d 0xC 1)
  defaultClass := fieldAt d 0xD 1
  shardMap := fieldAt d 0x10 8

/-- Ranges of a descriptor (R50, R51). -/
def TableDesc.ok (d : TableDesc) : Bool :=
  decide (d.table < 4096 ∧ d.rowElements % 32 = 0 ∧ 32 ≤ d.rowElements ∧ d.rowElements ≤ 4096 ∧ 1 ≤ d.rows ∧
    d.rows ≤ 0xFFFFFFFE ∧ 1 ≤ d.shardCount ∧ d.shardCount ≤ 4096 ∧ d.shardMode ≤ 1 ∧ d.blockShift ≤ 31 ∧
    d.allowed.toNat < 64 ∧ d.shardMap < 2 ^ 52) &&
  (List.range 13).any (fun k => decide (d.shardCount = 2 ^ k)) && d.permits .h d.defaultClass &&
  (decide (d.shardMode = 0) || decide (d.rows ≤ d.shardCount * 2 ^ d.blockShift))

/-- A shard map entry (R52). -/
def shardEntry (bs : List Byte) : ShardEntry where
  frame := fieldAt bs 0 1
  unit := fieldAt bs 1 1
  localRows := fieldAt bs 4 4
  directory := fieldAt bs 8 8
  counters := fieldAt bs 0x10 8
  default := fieldAt bs 0x18 8

/-- The shard map that a descriptor names, as memory holds it now: bytes of each entry. -/
def State.shardMapBytes (s : State) (n : Nat) (d : TableDesc) : Option (List (List Byte)) :=
  match s.bankRange n d.shardMap (32 * d.shardCount) with
  | none => none
  | some pins => some ((List.range d.shardCount).map fun k => s.pinBytes pins (d.shardMap + 32 * k) 32)

/-- Bytes of a default row copy. -/
def TableDesc.defaultBytes (d : TableDesc) : Nat := rowBursts d.defaultClass d.blocks * 64

/-- The pages of a range all lie in tier H of a frame and carry PIN. -/
def State.inTierH (s : State) (n frame va len : Nat) : Option (List PinPage) :=
  match s.pinnedRange n va len with
  | none => none
  | some pins => if pins.all fun g => decide (g.place.frame = frame ∧ g.place.tier = .h) then some pins else none

/-- Whether any of a list of pages lies in a mirrored range, byte by byte of the range. -/
def State.rangeMirrored (s : State) (pins : List PinPage) (va len : Nat) : Bool :=
  (pinPieces pins va len).any fun q => s.mirrored q.1 q.2

/-- Every byte of a range, on the pages given, lies in a mirrored range. -/
def State.rangeAllMirrored (s : State) (pins : List PinPage) (va len : Nat) : Bool :=
  (pinPieces pins va len).all fun q => (q.1.bursts q.2).all s.burstMirrored

/-- The shard pages that one shard adds (R347); none where an array lies wrongly (R52). -/
def State.shardPages (s : State) (n : Nat) (d : TableDesc) (sh : ShardEntry) : Option (List PinPage) :=
  match s.inTierH n sh.frame sh.directory (8 * sh.localRows), s.inTierH n sh.frame sh.counters (2 * sh.localRows),
    s.inTierH n sh.frame sh.default d.defaultBytes with
  | some a, some b, some c => some (a ++ b ++ c)
  | _, _, _ => none

/-- The shards and shard pages of a descriptor. -/
def State.readTable (s : State) (n : Nat) (d : TableDesc) : Option (List ShardEntry × List PinPage) :=
  match s.shardMapBytes n d, s.pinnedRange n d.shardMap (32 * d.shardCount) with
  | some es, some map =>
    let shards := es.map shardEntry
    if es.all (fun e => zeroAt e 2 2) ∧ shards.all (fun x => decide (x.frame < 20 ∧ x.unit < 16)) then
      (shards.mapM (s.shardPages n d)).map fun ps => (shards, (map ++ ps.flatten).eraseDups)
    else none
  | _, _ => none

/-- R97 for a table: its shard map, directories, default rows and resident rows lie in mirrored ranges, and no counter does. -/
def State.tableMirrors (s : State) (d : TableDesc) (shards : List ShardEntry) (pages : List PinPage) : Bool :=
  s.rangeAllMirrored pages d.shardMap (32 * d.shardCount) &&
    (shards.all fun x => s.rangeAllMirrored pages x.directory (8 * x.localRows) && s.rangeAllMirrored pages x.default d.defaultBytes &&
      !s.rangeMirrored pages x.counters (2 * x.localRows)) &&
    (List.range d.rows).all fun row => match (⟨d, shards, 0, 0, pages⟩ : Table).rowAt row with
      | some q =>
        let e := s.entryAt q
        s.entryBad q || !e.present || d.badEntry e || s.slotMirrored (e.unit q.shard.frame) (rowBursts e.cls d.blocks)
      | none => true

/-- Some admitted firing of any partition names a table (R50). -/
def State.tableNamed (s : State) (table : Nat) : Bool :=
  s.firings.any fun f => f.images.any fun i =>
    (i.contents.placement.any fun r => decide (r.kind = .shard ∧ r.table = table)) ||
      i.contents.plan.any fun p => decide (p.table = table)

/-- A write changes what an admitted firing was compiled against (R50). -/
def TableDesc.differs (d e : TableDesc) : Bool :=
  decide (d.shardCount ≠ e.shardCount ∨ d.shardMode ≠ e.shardMode ∨ d.blockShift ≠ e.blockShift ∨
    d.rowElements ≠ e.rowElements ∨ d.allowed ≠ e.allowed)

/-- Register or rewrite a table on a frame (R50): GENERATION is one more than the last one held for a new table, and rises
where the map's address, shape or bytes differ from those in force. -/
def State.writeTable (s : State) (n f : Nat) (d : TableDesc) : State :=
  match s.readTable n d with
  | none => s
  | some m =>
    let elsewhere := (s.anyTable d.table).map fun t => t.generation
    let gen := match s.tableAt f d.table with
      | some t =>
        if t.desc.shardMap ≠ d.shardMap ∨ t.desc.shardCount ≠ d.shardCount ∨ t.desc.shardMode ≠ d.shardMode ∨
            t.desc.blockShift ≠ d.blockShift ∨ t.shards ≠ m.1 then t.generation + 1
        else t.generation
      | none => elsewhere.getD (Sparse.read 0 s.lastGen d.table + 1)
    let new : Table := ⟨d, m.1, gen % 65536, n, m.2⟩
    let t := s.modFrame f fun x => { x with tables := Sparse.insert x.tables d.table new }
    { t with lastGen := Sparse.write 0 t.lastGen d.table (gen % 65536) }

/-! ## Windows and mirrored ranges (R97, R285) -/

/-- A window entry's data. -/
def windowOf (d : List Byte) : Window where
  read := bitAt (fieldAt d 0 2) 1
  write := bitAt (fieldAt d 0 2) 2
  carry := bitAt (fieldAt d 0 2) 3
  anySource := bitAt (fieldAt d 0 2) 5
  source := BitVec.ofNat 16 (fieldAt d 2 2)
  part := fieldAt d 4 1
  base := fieldAt d 8 8
  size := fieldAt d 0x10 8

/-- VALID of a window entry. -/
def windowValid (d : List Byte) : Bool := bitAt (fieldAt d 0 2) 0

/-- Ranges of a window entry. -/
def windowFieldsOk (d : List Byte) : Bool :=
  let w := windowOf d
  decide (fieldAt d 0 2 < 64) && !bitAt (fieldAt d 0 2) 4 && decide (w.part < 4) && zeroAt d 5 3 && zeroAt d 0x18 40 &&
    (if w.carry then decide (w.base = 0 ∧ w.size = 0)
      else !windowValid d || decide (w.base % 65536 = 0 ∧ w.base + w.size ≤ 2 ^ 52 ∧ w.size % 65536 = 0 ∧
        65536 ≤ w.size ∧ w.size ≤ 2 ^ 36))

/-- The pin table of a memory window; none where a page is unfit (R285). -/
def State.windowPins (s : State) (w : Window) : Option (List PinPage) :=
  if w.carry then some []
  else match (pagesOf w.base w.size).mapM fun p => s.mappedPin w.part (p * 65536) with
  | none => none
  | some pins => if w.write ∧ !pins.all (fun g => g.write) then none else some pins

/-- A mirrored range's data for an index and owner. -/
def mirrorOf (index owner : Nat) (d : List Byte) : MirrorRange :=
  ⟨index, Tier.ofNum (fieldAt d 0 1), fieldAt d 4 4, fieldAt d 8 4, owner⟩

/-- Ranges of a mirrored range entry. -/
def mirrorFieldsOk (d : List Byte) : Bool :=
  let m := mirrorOf 0 0 d
  decide (fieldAt d 0 1 ≤ 1) && zeroAt d 1 3 && zeroAt d 12 52 && decide ((m.start + m.count) * 65536 ≤ m.tier.bytes)

/-- Leaves that a partition's tree maps from a table: does one satisfy a test? -/
def State.someLeaf (s : State) (n : Nat) (p : Nat → Nat → Bool) : List (Nat × Nat) → Nat → Nat → Bool
  | [], _, _ => false
  | (shift, nbits) :: rest, frame, off =>
    (List.range (2 ^ nbits)).any fun i =>
      let e := s.devNat ⟨frame, .h, off + i * 8⟩ 8
      decide (e % 2 = 1) && (if bitAt e 1 then p e (2 ^ shift)
        else s.someLeaf n p rest (bits e 7 3) (bits e 63 8 * 256))

/-- A partition's tree maps a page frame of a range (R412). -/
def State.treeMaps (s : State) (n f : Nat) (m : MirrorRange) : Bool :=
  let r := (s.part n).live
  s.someLeaf n (fun e size =>
    decide (bits e 6 4 = m.tier.num ∧ bits e 11 7 = f ∧ bits e 63 16 < m.start + m.count ∧
      m.start < bits e 63 16 + size / 65536)) [(39, 13), (30, 9), (21, 9), (16, 5)] r.ptFrame.toNat (r.ptOffset.toNat * 65536)

/-- A page table of a tree lies in a page frame of tier H. -/
def State.someTable (s : State) (f page : Nat) : List (Nat × Nat) → Nat → Nat → Bool
  | [], _, _ => false
  | (_, nbits) :: rest, frame, off =>
    (decide (frame = f) && decide (off / 65536 = page)) ||
      (List.range (2 ^ nbits)).any fun i =>
        let e := s.devNat ⟨frame, .h, off + i * 8⟩ 8
        decide (e % 2 = 1) && !bitAt e 1 && s.someTable f page rest (bits e 7 3) (bits e 63 8 * 256)

/-- A page frame is in use: a tree maps it or has a table in it, or a row's slot lies in it (R246, R250; log 50). -/
def State.pageInUse (s : State) (f : Nat) (t : Tier) (p : Nat) : Bool :=
  s.slotNamed f t (p * 1024) 1024 none || s.slotHeld f t (p * 1024) 1024 none ||
    (List.range 4).any fun n => s.partExists n && (s.treeMaps n f ⟨0, t, p, 1, 0⟩ ||
      (decide (t = .h) && s.someTable f p [(39, 13), (30, 9), (21, 9), (16, 5)] (s.part n).live.ptFrame.toNat
        ((s.part n).live.ptOffset.toNat * 65536)))

/-! ## Application -/

/-- The part of a bank's list that applies to one frame: tables and mirrored ranges (R410, R414). -/
def State.applyEntry (s : State) (n f : Nat) (e : GwEntry) : State :=
  if !e.names f then s
  else match e.struct with
  | 1 =>
    if e.op = 0 then s.writeTable n f (tableDesc e.data)
    else s.modFrame f fun x => { x with tables := Sparse.erase x.tables e.index }
  | 3 => s.modFrame f fun x =>
    let rest := x.mirrored.filter fun m => decide (m.index ≠ e.index)
    { x with mirrored := if e.op = 0 then rest ++ [mirrorOf e.index n e.data] else rest }
  | _ => s

/-- A window entry, which applies on every frame. -/
def State.applyWindow (s : State) (e : GwEntry) : State :=
  if e.struct ≠ 2 then s
  else
    let clear : State := { s with fabric := { s.fabric with
      windows := Sparse.erase s.fabric.windows e.index, winPins := Sparse.erase s.fabric.winPins e.index } }
    if e.op = 1 ∨ !windowValid e.data then clear
    else match s.windowPins (windowOf e.data) with
    | none => clear
    | some pins => { clear with fabric := { clear.fabric with
        windows := Sparse.insert clear.fabric.windows e.index (windowOf e.data),
        winPins := Sparse.insert clear.fabric.winPins e.index pins } }

/-- The bank of partition `n` applies on frame `f`. -/
def State.applyFrame (s : State) (n f : Nat) : State :=
  s.forEach (s.part n).bank.list fun t e => t.applyEntry n f e

/-- A pool that a COMMIT sets is written to zero, every block (R214); HIST_POOL_FREE follows at a step boundary (R453). -/
def State.zeroPool (s : State) (n : Nat) : State :=
  let p := s.part n
  let len := p.live.poolBlocks * 16384
  let t := match s.pinnedRange n p.poolVa len with
    | none => s
    | some pins => s.forEach (pinPieces pins p.poolVa len) fun t q =>
        ({ t with mem := { t.mem with dram := t.mem.dram.zero q.1.key q.2 } } : State).clearPoison q.1 q.2
  t.modPart n fun p => { p with blocks := List.range p.live.poolBlocks }

/-- What a bank sets for the partition as a whole takes effect when its last frame has applied it: registers and windows
(R414, R449; log 48). -/
def State.applyWhole (s : State) (n : Nat) : State :=
  let old := (s.part n).live
  let t := s.modPart n fun p => { p with live := p.staged }
  let t := t.forEach (t.part n).bank.list State.applyWindow
  let new := (t.part n).live
  t.when (decide (old.poolBase ≠ new.poolBase ∨ old.poolBlocks ≠ new.poolBlocks)) fun t => t.zeroPool n

/-- A partition's bank is EMPTY (R411). -/
def BankState.empty : BankState := ⟨0, false, 0, 0, [], [], none, false⟩

/-- The COMMIT of a partition bank is complete on every frame that is not fenced; fenced frames load the settings for their
return (R414). -/
def State.commitDone (s : State) (n : Nat) : State :=
  let b := (s.part n).bank
  let t := s.forEach ((List.range 20).filter fun f => (s.frame f).fenced) fun t f => t.applyFrame n f
  let t := (t.applyWhole n).modPart n fun p => { p with bank := { BankState.empty with lateWrite := p.bank.lateWrite } }
  match b.cid with
  | some c => t.completeOk c 0
  | none => t

/-- Frames that have still to apply a COMMIT. -/
def State.commitLeft (s : State) (b : BankState) : List Nat := b.left.filter fun f => !(s.frame f).fenced

/-- Firings whose beads run on other frames go on with the tables of frame `f` as they are until their running steps end (R39). -/
def State.keepTables (s : State) (f : Nat) : State :=
  { s with firings := s.firings.map fun x =>
      if x.step.isSome && inMask x.img.shardFrames f && !inMask x.img.beadFrames f && (Sparse.find x.oldTables f).isNone then
        { x with oldTables := Sparse.insert x.oldTables f (s.frame f).tables }
      else x }

/-- A paired primary whose twin can be reached (R415). -/
def State.carriesLists (s : State) : Bool :=
  s.twin.paired && decide (s.twin.role = 1) && (List.range 20).any fun f => (s.frame f).streamUp

/-- Every frame that is not fenced, and the twin where the bank carries changes to it, has applied a COMMIT (R414, R415). -/
def State.commitEnds (s : State) (n : Nat) : Bool :=
  let b := (s.part n).bank
  decide (b.state = 6 ∧ s.commitLeft b = []) && !(b.twin && s.carriesLists)

/-- GREENWARE_APPLY: a committed partition bank on frame `f`. -/
def State.commitFrame (s : State) (n f : Nat) : State :=
  let t := if (s.part n).bank.left.contains f then
      ((s.keepTables f).applyFrame n f).withSome (s.part n).bank.cid fun t c => t.modCmd c fun x => { x with applied := 1 }
    else s
  let t := t.modPart n fun p => { p with bank := { p.bank with left := p.bank.left.filter (· ≠ f) } }
  if t.commitEnds n then t.commitDone n else t

/-! ## CHECK of a partition bank (R411 to R415) -/

/-- The state with a bank applied whole, against which its tests are made. -/
def State.supposed (s : State) (n : Nat) (list : List GwEntry) : State :=
  let t := s.modPart n fun p => { p with live := p.staged }
  t.forEach (list.filter fun e => decide (e.struct = 3)) fun t e =>
    t.forEach (List.range 20) fun t f => t.applyEntry n f e

/-- REASON of a table entry, if it fails: 1 range, 2 conflicts with a firing, 3 placement. -/
def State.tableReason (s : State) (n : Nat) (e : GwEntry) : Option Nat :=
  let d := tableDesc e.data
  let frames := maskFrames e.frames
  let inForce := frames.filterMap fun f => s.tableAt f e.index
  let foreign : Bool := match s.anyTable e.index with
    | some t => decide (t.owner ≠ n)
    | none => false
  if !e.framesOk ∨ 4096 ≤ e.index ∨ foreign then some 1
  else if e.op = 1 then (if inForce ≠ [] ∧ s.tableNamed e.index then some 2 else none)
  else if !d.ok ∨ d.table ≠ e.index ∨ !zeroAt e.data 0x18 40 then some 1
  else if s.tableNamed e.index ∧ inForce.any (fun t => d.differs t.desc) then some 2
  else match s.readTable n d with
  | none => some 3
  | some m => if s.tableMirrors d m.1 m.2 then none else some 3

/-- REASON of a window entry: 1 range, 3 placement, 6 ownership. -/
def State.windowReason (s : State) (n : Nat) (e : GwEntry) : Option Nat :=
  let w := windowOf e.data
  let owned : Bool := match Sparse.find s.fabric.windows e.index with
    | some x => decide (x.part = n)
    | none => true
  if e.frames ≠ 0 ∨ 4096 ≤ e.index then some 1
  else if e.index = 4095 ∨ !owned then some 6
  else if e.op = 1 then none
  else if !windowFieldsOk e.data then some 1
  else if w.part ≠ n then some 6
  else if windowValid e.data ∧ (s.windowPins w).isNone then some 3
  else none

/-- Tables that stay registered as they are under a change list: R97 holds of them with the list's mirrored ranges too. -/
def State.keptMirrors (s : State) (list : List GwEntry) : Bool :=
  (List.range 20).all fun f => (s.frame f).tables.all fun tb =>
    (list.any fun e => decide (e.struct = 1 ∧ e.index = tb.1) && e.names f) || s.tableMirrors tb.2.desc tb.2.shards tb.2.pages

/-- REASON of a mirrored range entry: 1 range, 3 placement. -/
def State.mirrorReason (s : State) (n : Nat) (list : List GwEntry) (e : GwEntry) : Option Nat :=
  if !e.framesOk ∨ 256 ≤ e.index then some 1
  else if !s.keptMirrors list then some 3
  else if e.op = 1 then none
  else if !mirrorFieldsOk e.data then some 1
  else if (maskFrames e.frames).any (fun f => (List.range 4).any fun k =>
      decide (k ≠ n) && s.partExists k && s.treeMaps k f (mirrorOf e.index n e.data)) then some 3
  else none

/-- REASON of an entry of a partition bank. -/
def State.entryReason (s : State) (n : Nat) (list : List GwEntry) (e : GwEntry) : Option Nat :=
  if 1 < e.op ∨ e.reserved then some 1
  else match e.struct with
  | 1 => s.tableReason n e
  | 2 => s.windowReason n e
  | 3 => s.mirrorReason n list e
  | _ => some 1

/-- A range in tier H of frames of the partition, with PIN and outside every mirrored range (R213, R340, R358). -/
def State.plainH (s : State) (n va len : Nat) : Bool :=
  match s.pinnedRange n va len with
  | none => false
  | some pins => pins.all (fun g => decide (g.place.tier = .h)) && !s.rangeMirrored pins va len

/-- REASON of the registers of a partition bank, in the supposed state `t`. -/
def State.regsReason (s t : State) (n : Nat) : Option Nat :=
  let old := (s.part n).live
  let r := (t.part n).live
  let mine := s.firings.filter fun f => decide (f.part = n)
  let poolChanged := decide (old.poolBase ≠ r.poolBase ∨ old.poolBlocks ≠ r.poolBlocks)
  if 4194304 < r.poolBlocks then some 1
  else if poolChanged ∧ mine.any (fun f => f.images.any fun i => i.seq) then some 2
  else if r.serveOnly ∧ mine.any (fun f => f.images.any fun i => decide (i.mode = 1 ∨ i.mode = 2)) then some 2
  else if !(inMask (s.part n).frames r.ptFrame.toNat && decide (r.ptOffset.toNat * 65536 + 65536 ≤ Tier.h.bytes)) then some 3
  else if r.poolBlocks ≠ 0 ∧ !t.plainH n ((t.part n).poolVa) (r.poolBlocks * 16384) then some 3
  else if r.shadowBase ≠ 0 ∧ !t.plainH n (r.shadowBase.toNat * 65536) 524288 then some 3
  else if r.acctBase ≠ 0 ∧ !t.plainH n (r.acctBase.toNat * 16384) 16384 then some 3
  else if (List.range 20).any (fun f =>
      decide ((s.part n).allocOf f 1 < s.firingUnits n 0 f 1 + Sparse.read 0 r.winCarry f)) then some 5
  else none

/-- The outcome of CHECK of a partition bank: REASON and ENTRY of the first failure (R412, R416; log 49). -/
def State.checkBank (s : State) (n : Nat) (list : List GwEntry) : Option (Nat × Nat) :=
  let t := s.supposed n list
  match (List.zip (List.range list.length) list).findSome? fun q => (t.entryReason n list q.2).map fun r => (r, q.1) with
  | some x => some x
  | none => (s.regsReason t n).map fun r => (r, 0xFFFFFFFF)

/-- A list with changes that a paired module carries to its twin: table descriptors and mirrored ranges (R415). -/
def carried (list : List GwEntry) : Bool := list.any fun e => decide (e.struct = 1 ∨ e.struct = 3)

/-- On the secondary such a list is refused (R415). -/
def State.twinBars (s : State) (list : List GwEntry) : Bool := decide (s.twin.role = 2 ∨ s.twin.role = 3) && carried list

/-- REASON and ENTRY of a list that passes here and fails in the twin's check: its first change that is carried there (R415, R416;
log 109). -/
def State.twinReason (s : State) (list : List GwEntry) (passes : Bool) : Option (Nat × Nat) :=
  if s.carriesLists ∧ !passes then
    ((List.zip (List.range list.length) list).find? fun q => decide (q.2.struct = 1 ∨ q.2.struct = 3)).map fun q => (7, q.1)
  else none

/-- CHECK (R35, R411, R412, R415): one atomic test of the bank, in its turn; it completes OK whatever the outcome. While the bank is
CHECKING or COMMITTING it is refused at once. `twinPasses` is the outcome of the twin's own check of the changes carried there. -/
def execCheck (c : Nat) (s : State) (twinPasses : Bool := true) : Outcome :=
  within true (s.when (s.up && s.hasMaster && !s.master.moving) fun s => s.onReady c 0x28 fun s x =>
    let n := x.port
    let b := (s.part n).bank
    if b.state = 2 ∨ b.state = 6 then s.refuse c 0x18
    else if !s.masterTurn c then s
    else match s.readList n with
    | none => (s.modPart n fun p => { p with bank :=
        { p.bank with state := 4, reason := 3, entry := 0xFFFFFFFF, list := [] } }).completeOk c 0
    | some list =>
      if s.twinBars list then s.refuse c 0x16
      else
        let r := (s.checkBank n list).or (s.twinReason list twinPasses)
        (s.modPart n fun p => { p with bank := { p.bank with
          state := if r.isNone then 3 else 4,
          reason := (r.map fun q => q.1).getD 0,
          entry := (r.map fun q => q.2).getD 0,
          list := list } }).completeOk c 0)

/-- The twin reports that it has applied a COMMIT's changes; the COMMIT ends if it was the last (R415). -/
def State.twinCommitted (s : State) (c : Nat) : State :=
  match (List.range 4).find? fun n => decide ((s.part n).bank.cid = some c) with
  | none => s
  | some n =>
    let t := s.modPart n fun p => { p with bank := { p.bank with twin := false } }
    if t.commitEnds n then t.commitDone n else t

/-- COMMIT (R413 to R415): the bank waits for the next quiescent point of every frame that is not fenced, and for the twin where
it carries changes there; `twinApplied` on a COMMIT under way says that the twin has applied them (log 109). -/
def execCommit (c : Nat) (s : State) (twinApplied : Bool := false) : Outcome :=
  within true (if s.up && twinApplied && (s.cmd c).any (fun x => decide (x.phase = .busy ∧ x.d.opcode = 0x29)) then s.twinCommitted c
  else s.when (s.up && s.masterTurn c) fun s => s.onReady c 0x29 fun s x =>
    let n := x.port
    let b := (s.part n).bank
    if s.twinBars b.list then s.refuse c 0x16
    else if b.state ≠ 3 then s.refuse c 0x18
    else
      let frames := (List.range 20).filter fun f => !(s.frame f).fenced
      let t := (s.staleBanks (some n)).modPart n fun p => { p with bank :=
        { p.bank with state := 6, left := frames, cid := some c, twin := s.carriesLists && carried p.bank.list } }
      (t.modCmd c fun x => { x with phase := .busy }).requestAction (BitVec.ofNat 20 (frames.foldl (fun m f => m ||| 2 ^ f) 0))
        (.commit n))

/-- GW_DISCARD (R411): the staged copies return to the values in force, and the bank is EMPTY. -/
def State.discardBank (s : State) (n : Nat) : State :=
  let b := (s.part n).bank
  if b.state = 2 ∨ b.state = 6 then s
  else s.modPart n fun p => { p with
    staged := p.live, bank := { BankState.empty with lateWrite := p.bank.lateWrite } }

/-- GW_DISCARD: a write of the register. -/
def execGwDiscard (port : Nat) (value : Word64) (s : State) : Outcome :=
  within (portOk port) (s.when (s.up && decide ((s.port port).state ≠ 0) && s.partExists port && value.getLsbD 0) fun s => s.discardBank port)

/-! ## The module bank (R345, R349, R375, R463 to R465) -/

/-- The layout record in force, byte by byte. -/
def State.layoutByte (s : State) (off : Nat) : Byte :=
  if off < 32 then
    let p := s.part (off / 8)
    let w := p.frames.toNat + p.share % 256 * 2 ^ 32 + p.readFrom.toNat * 2 ^ 40
    BitVec.ofNat 8 (w / 256 ^ (off % 8))
  else
    let k := (off - 32) / 4
    BitVec.ofNat 8 ((s.part (k / 200)).allocOf (k % 200 / 10) (k % 10) / 256 ^ (off % 4))

/-- The staged layout record. -/
def State.stagedLayout (s : State) : List Byte :=
  (List.range 3232).map fun i => (Sparse.find s.mbStaged.layout i).getD (s.layoutByte i)

/-- FRAMES_n of a layout. -/
def layoutFrames (l : List Byte) (n : Nat) : Nat := fieldAt l (8 * n) 4

/-- ALLOC_n_f_a of a layout. -/
def layoutAlloc (l : List Byte) (n f a : Nat) : Nat := fieldAt l (0x20 + 4 * (200 * n + 10 * f + a)) 4

/-- Reserved bits and ranges of a layout (R345). -/
def layoutRangesOk (l : List Byte) : Bool :=
  (List.range 4).all fun n =>
    decide (layoutFrames l n < 2 ^ 20 ∧ fieldAt l (8 * n + 5) 1 < 16 ∧ fieldAt l (8 * n + 6) 2 = 0) &&
      (decide (layoutFrames l n = 0) || decide (1 ≤ fieldAt l (8 * n + 4) 1))

/-- Partitions hold their own port frame and no common frame (R346). -/
def State.layoutShapeOk (s : State) (l : List Byte) : Bool :=
  (List.range 4).all fun n => decide (layoutFrames l n = 0) ||
    (bitAt (layoutFrames l n) (s.portFrame n) && (List.range 4).all fun m =>
      decide (m = n) || decide (layoutFrames l n &&& layoutFrames l m = 0))

/-- Ranges that a partition must not lose: page table root, history pool, shadow ring, accounting area, as places. -/
def State.keptPlaces (s : State) (n : Nat) : List Nat :=
  let p := s.part n
  let pages := fun va len => ((s.pinnedRange n va len).getD []).map fun g => g.place.frame
  (if p.frames = 0 then [] else [p.live.ptFrame.toNat]) ++
    (if p.live.poolBlocks = 0 then [] else pages p.poolVa (p.live.poolBlocks * 16384)) ++
    (if p.live.shadowBase = 0 then [] else pages (p.live.shadowBase.toNat * 65536) 524288) ++
    (if p.live.acctBase = 0 then [] else pages (p.live.acctBase.toNat * 16384) 16384)

/-- The allocations of an activity on a frame fail: above the capacity, scrub not 0, or below what is reserved (R349). -/
def State.allocBad (s : State) (l : List Byte) (f a : Nat) : Bool :=
  let sum := (List.range 4).foldl (fun k n => k + layoutAlloc l n f a) 0
  decide (if a = 9 then sum ≠ 0 else capacity a < sum) ||
    (List.range 4).any fun n => decide (layoutAlloc l n f a < s.resvUnits n f a)

/-- REASON of a layout, if it fails (R349). -/
def State.layoutReason (s : State) (l : List Byte) : Option Nat :=
  let changed := (List.range 4).filter fun n => decide (layoutFrames l n ≠ (s.part n).frames.toNat)
  let lost := fun n f => inMask (s.part n).frames f && !bitAt (layoutFrames l n) f
  if !layoutRangesOk l then some 1
  else if !s.layoutShapeOk l then some 4
  else if changed.any (fun n => (s.keptPlaces n).any (lost n)) then some 4
  else if changed.any (fun n => s.firings.any fun f => decide (f.part = n)) then some 2
  else if changed.any (fun n => (List.range 64).any fun r => decide ((s.ring n r).state ≠ 0)) then some 4
  else if (List.range 20).any (fun f => (List.range 10).any fun a => s.allocBad l f a) then some 5
  else none

/-- REASON of a route entry (R375). -/
def routeReason (e : GwEntry) : Option Nat :=
  let w := fieldAt e.data 0 8
  let links := [bits w 13 8, bits w 19 14, bits w 25 20, bits w 31 26]
  let named := links.filter (· ≠ 63)
  if 1 < e.op ∨ e.reserved ∨ e.frames ≠ 0 ∨ e.struct ≠ 4 then some 1
  else if e.op = 1 then none
  else if bits w 3 1 ≠ 0 ∨ bits w 63 32 ≠ 0 ∨ !zeroAt e.data 8 56 ∨ links.any (fun k => decide (60 ≤ k ∧ k ≠ 63)) then some 1
  else if bitAt w 0 ∧ (bits w 7 4 = 0 ∨ named = [] ∨ named.eraseDups.length ≠ named.length) then some 1
  else none

/-- Ranges of the module bank's settings (R374, R387, R463). -/
def ModuleRegs.ok (m : ModuleRegs) : Bool :=
  decide (60 ≤ m.sweepSeconds ∧ m.sweepSeconds ≤ 86400 ∧ m.stageMib % 256 = 0 ∧ 256 ≤ m.stageMib ∧ m.stageMib ≤ 16384 ∧
    1 ≤ m.ckptGib ∧ m.ckptGib ≤ 64 ∧ 1 ≤ m.scrubHours ∧ m.scrubHours ≤ 168 ∧ 100 ≤ m.fabricUs ∧ m.fabricUs ≤ 60000)

/-- The outcome of CHECK of the module bank: REASON and ENTRY of the first failure (R349, R465; log 49). -/
def State.checkModule (s : State) : Option (Nat × Nat) :=
  match (List.zip (List.range s.mbEntries.length) s.mbEntries).findSome? fun q => (routeReason q.2).map fun r => (r, q.1) with
  | some x => some x
  | none =>
    let r := if !s.mbStaged.ok then some 1 else s.layoutReason s.stagedLayout
    r.map fun r => (r, 0xFFFFFFFF)

/-- A COMMIT that moves a partition across 10 frames sets its records to 0 and assigns fresh ones (R359). -/
def State.freshRecords (s : State) (n : Nat) : State :=
  let t := (s.modPart n fun p => { p with acct := [] }).forEach (List.range 256) fun t k => t.writeRecord n k
  let mine := t.firings.filter fun f => decide (f.part = n)
  (t.forEach mine fun t f => t.modFiring f.handle fun f => { f with acct := none }).forEach mine fun t f => t.takeRecord f.handle

/-- A partition takes its part of a layout. -/
def State.takeLayout (s : State) (l : List Byte) (n : Nat) : State :=
  let old := (s.part n).acctKind
  let t := s.modPart n fun p => { p with
    frames := BitVec.ofNat 20 (layoutFrames l n),
    share := fieldAt l (8 * n + 4) 1,
    readFrom := BitVec.ofNat 4 (fieldAt l (8 * n + 5) 1),
    alloc := (List.range 20).foldl (fun m f => (List.range 10).foldl (fun m a =>
      Sparse.write 0 m (f * 10 + a) (layoutAlloc l n f a)) m) [] }
  t.when (decide ((t.part n).acctKind ≠ old)) fun t => t.freshRecords n

/-- A route entry (R375). -/
def State.applyRoute (s : State) (e : GwEntry) : State :=
  let w := BitVec.ofNat 64 (fieldAt e.data 0 8)
  let old := s.fabric.routes
  let new := if e.op = 0 ∧ w.getLsbD 0 then Sparse.insert old e.index w else Sparse.erase old e.index
  { s with fabric := { s.fabric with routes := new } }

/-- A COMMIT that changes PAIRED: a module that becomes paired has no role until a HELLO gives it one; one that becomes unpaired is
primary and shows every frame DOWN (R382, R383; log 62). -/
def State.setPaired (s : State) (b : Bool) : State :=
  if s.twin.paired = b then s
  else
    let t : State := { s with twin := { s.twin with role := if b then 0 else 1, handover := none } }
    t.forEach (List.range 20) fun t f => (t.modFrame f fun x => { x with streamUp := false }).setMirror f 2

/-- The settings of the module bank take effect (R100, R345, R374, R387, R464). -/
def State.applyModule (s : State) : State :=
  let l := s.stagedLayout
  let m := { s.mbStaged with layout := [] }
  let t := s.forEach (List.range 4) fun t n => t.takeLayout l n
  let t := t.forEach t.mbEntries State.applyRoute
  let t := t.setPaired (m.twinCfg.getLsbD 17)
  let t : State := { t with
    mbLive := m, mbStaged := m, mbEntries := [],
    fabric := { t.fabric with
      moduleId := m.idReg.setWidth 16, idSet := m.idReg.getLsbD 16, timeoutUs := m.fabricUs },
    twin := { t.twin with
      peer := m.twinCfg.setWidth 16, far := m.twinCfg.getLsbD 16, paired := m.twinCfg.getLsbD 17,
      band2 := m.twinPolicy.getLsbD 0, statusFar := m.twinCfg.getLsbD 16 } }
  t.forEach (List.range 20) fun t f => t.modFrame f fun x =>
    if x.journal.ring = [] then { x with journal := { x.journal with sizeMib := m.stageMib } } else x

/-- A staged write moves a bank to WRITTEN; during CHECKING and COMMITTING it is ignored, and LATE_WRITE is set (R411). -/
def BankState.writable (b : BankState) : Bool := decide (b.state ≠ 2 ∧ b.state ≠ 6)

/-- STATUS after a write. -/
def State.smbusDone (s : State) (r : Nat) : State := { s with smbus := { s.smbus with result := r } }

/-- MB_CHECK runs: STATUS 0 whatever the outcome, which MB_STATUS shows. -/
def State.runMbCheck (s : State) : State :=
  if !s.mb.writable then s.smbusDone 2
  else match s.checkModule with
    | none => ({ s with mb := { s.mb with state := 3, reason := 0, entry := s.mbEntries.length } } : State).smbusDone 0
    | some r => ({ s with mb := { s.mb with state := 4, reason := r.1, entry := r.2 } } : State).smbusDone 0

/-- MB_COMMIT runs: refused unless the bank is PASSED; otherwise busy until a quiescent point on every frame has applied it. -/
def State.runMbCommit (s : State) : State :=
  if s.mb.state ≠ 3 then s.smbusDone 2
  else
    let frames := (List.range 20).filter fun f => !(s.frame f).fenced
    let t := s.staleBanks (some 4)
    let t : State := { t with mb := { t.mb with state := 6, left := frames } }
    (t.smbusDone 1).requestAction (BitVec.ofNat 20 (frames.foldl (fun m f => m ||| 2 ^ f) 0)) (.commit 4)

/-- A command of the kiln master over SMBus runs, or waits with STATUS busy while the role moves or the master runs a
FIRING_ADMIT or a COMMIT (R20, R412; log 88). -/
def State.masterSmbus (s : State) (commit : Bool) : State :=
  if s.master.moving || s.masterBusy then { s with smbus := { s.smbus with result := 1, waiting := some commit } }
  else if commit then s.runMbCommit
  else s.runMbCheck

/-- The kiln master is free again: the command that waited over SMBus runs. -/
def State.masterFree (s : State) : State :=
  match s.smbus.waiting with
  | none => s
  | some b => if s.master.moving || s.masterBusy then s else ({ s with smbus := { s.smbus with result := 0, waiting := none } } : State).masterSmbus b

/-- GREENWARE_APPLY of the module bank: at a quiescent point on every frame that is not fenced (R349). At the end MB_COMMIT is
done, with the alert (R475, R477). -/
def State.commitModule (s : State) (f : Nat) : State :=
  let t : State := { s with mb := { s.mb with left := s.mb.left.filter (· ≠ f) } }
  if t.mb.state = 6 ∧ t.commitLeft t.mb = [] then
    let u : State := { t.applyModule with mb := { BankState.empty with lateWrite := t.mb.lateWrite } }
    ({ u with smbus := { u.smbus with result := if u.smbus.result = 1 then 0 else u.smbus.result } } : State).alert 4
  else t

end Sys2Proof.Machine
end

