-- ==== Sys2Proof/Machine/Ports.lean ====
section
/-! DEFINITION. Host ports: the movable window, bias, port down, re-attach, link events (R321 to R343). -/

namespace Sys2Proof.Machine

/-! ## The movable window (R326, R327) -/

/-- The window base that an access accepted now uses: the pending one while a slide is pending (R326). -/
def Port.baseNow (p : Port) : Nat := (p.slideTo.getD p.winBase).toNat * 2 ^ 28

/-- A failed window access counts in HOST_WIN_ERRS (R327). -/
def State.winErr (s : State) (p : Nat) : State := s.modPort p fun x => { x with winErrs := inc32 x.winErrs }

/-- The completion of a window read joins the port's transmit queue. -/
def State.winData (s : State) (p : Nat) (bs : List Byte) (poison : Bool) : State :=
  s.modPort p fun x => { x with tx := x.tx ++ [.windowRead bs poison] }

/-- A host transfer of `n` bytes on the frame that holds the page is charged to its host DMA tally (R327, R351). -/
def State.chargeHost (s : State) (p f n : Nat) : Option State := s.chargePart p f 6 ((n + 63) / 64)

/-- A window access waits: a read of `len` bytes, or, with `len` 0, a write (R327, R353). -/
def State.windowWait (s : State) (p : Nat) (w : WinWait) : State :=
  s.modPort p fun x => { x with winWaits := x.winWaits ++ [w] }

/-- A window read as the walk finds its page (R327). -/
def State.windowRead (s : State) (p va len : Nat) (found : List BurstFound) : State :=
  let f := s.portFrame p
  let t := s.fillTlb f p va
  let failed := (t.winErr p).winData p (List.replicate len 0xFF#8) false
  match s.walkAt f p va with
  | .bad _ => failed
  | .leaf w =>
    let l := Leaf.ofWord w
    if 1 < l.loc then failed
    else
      let q := l.place.add (va % 65536)
      match t.chargeHost p l.frame len with
      | none => (t.holdTally p l.frame 6).windowWait p ⟨va, [], len, found⟩
      | some t =>
        let t := t.findErrors (q.bursts len) found
        if t.badRead q len then (t.countPoison l.frame).winData p (t.devBytes q len) true
        else t.winData p (t.devBytes q len) false

/-- A window write as the walk finds its page (R327): discarded where it fails; it waits while the page is BUSY. -/
def State.windowWrite (s : State) (p va : Nat) (bs : List Byte) : State :=
  let f := s.portFrame p
  let t := s.fillTlb f p va
  match s.walkAt f p va with
  | .bad _ => t.winErr p
  | .leaf w =>
    let l := Leaf.ofWord w
    let q := l.place.add (va % 65536)
    if 1 < l.loc ∨ !l.write then t.winErr p
    else if l.busy then t.windowWait p ⟨va, bs, 0, []⟩
    else if t.secondaryBars q bs.length then t.winErr p
    else if (q.bursts bs.length).any (fun u => t.badBurst u && !q.covers bs.length u) then t.winErr p
    else match t.chargeHost p l.frame bs.length with
      | none => (t.holdTally p l.frame 6).windowWait p ⟨va, bs, 0, []⟩
      | some t => t.writeDev q bs

/-- A window access, page by page: it waits behind an earlier one that waits, since posted writes keep their order and no read
passes them (R326; log 111). -/
def State.windowAccess (s : State) (p : Nat) (w : WinWait) : State :=
  if (s.port p).winWaits ≠ [] then s.windowWait p w
  else if w.len = 0 then s.windowWrite p w.va w.data
  else s.windowRead p w.va w.len w.found

/-- The window accesses of a port that wait go on, in order, up to one that waits again (R353). -/
def State.retryWindow (s : State) (p : Nat) : State :=
  (s.modPort p fun x => { x with winWaits := [] }).forEach (s.port p).winWaits fun t w => t.windowAccess p w

/-- The port answers window accesses: released and not DOWN (R342). -/
def State.portUp (s : State) (p : Nat) : Bool := s.up && decide ((s.port p).state ≠ 0)

/-- WINDOW_READ (R326, R327), page by page; `found` are errors that its reads find. -/
def execWindowRead (port offset len : Nat) (s : State) (found : List BurstFound := []) : Outcome :=
  within (portOk port)
    (s.when (s.portUp port && decide (offset + len ≤ 2 ^ 28)) fun s =>
      s.forEach (pieces ((s.port port).baseNow + offset) len) fun t pc =>
        t.windowAccess port ⟨pc.1, [], pc.2, found⟩)

/-- WINDOW_WRITE (R326, R327), page by page. -/
def execWindowWrite (port offset : Nat) (data : List Byte) (s : State) : Outcome :=
  within (portOk port)
    (s.when (s.portUp port && decide (offset + data.length ≤ 2 ^ 28)) fun s =>
      let va := (s.port port).baseNow + offset
      s.forEach (pieces va data.length) fun t pc =>
        t.windowAccess port ⟨pc.1, (data.drop (pc.1 - va)).take pc.2, 0, []⟩)

/-- A WIN_BASE write (R326, R330): the change is pending, and every shared page is back-invalidated first. -/
def writeWinBase (w : Word64) (x : Port) : Port :=
  { x with slideTo := some (w.extractLsb' 28 24), clearing := x.shared }

/-- WIN_BASE_WRITE. -/
def execWinBaseWrite (port : Nat) (value : Word64) (s : State) : Outcome :=
  within (portOk port) (s.when (s.portUp port) fun s => s.modPort port (writeWinBase value))

/-- WIN_SLIDE_DONE (R326, R330): with no earlier access waiting and no back-invalidation in progress, the base changes and
every bias bit is 0. -/
def execWinSlideDone (port : Nat) (s : State) : Outcome :=
  within (portOk port)
    (s.modPort port fun x =>
      match x.slideTo with
      | some b => if x.winWaits = [] ∧ x.clearing = [] then { x with winBase := b, slideTo := none, shared := [] } else x
      | none => x)

/-! ## Bias (R329, R330) -/

/-- The device virtual address of a window page. -/
def Port.pageVa (x : Port) (page : Nat) : Nat := x.winBase.toNat * 2 ^ 28 + page * 65536

/-- A page that may be shared: LOC 0 or 1, no PIN, outside every mirrored range (R330). -/
def State.mayShare (s : State) (p page : Nat) : Bool :=
  match s.walkAt (s.portFrame p) p ((s.port p).pageVa page) with
  | .bad _ => false
  | .leaf w =>
    let l := Leaf.ofWord w
    decide (l.loc ≤ 1) && !l.pin && !s.pageMirrored l.place.pageFrame

/-- Writing 1 to a bias bit (R330). -/
def State.biasSet (s : State) (p page : Nat) : State :=
  let x := s.port p
  if !x.cxl ∨ x.shared.contains page then s
  else if s.mayShare p page then s.modPort p fun x => { x with shared := x.shared ++ [page] }
  else s.modPort p fun x => { x with biasRefused := true }

/-- Writing 0 to a bias bit (R330): the bit stays 1 until the host has answered for every line. -/
def State.biasClear (s : State) (p page : Nat) : State :=
  s.modPort p fun x =>
    if x.cxl ∧ x.shared.contains page ∧ !x.clearing.contains page then { x with clearing := x.clearing ++ [page] } else x

/-- BIAS_SET. -/
def execBiasSet (port page : Nat) (s : State) : Outcome :=
  within (portOk port && decide (page < 4096)) (s.when (s.portUp port) fun s => s.biasSet port page)

/-- BIAS_CLEAR. -/
def execBiasClear (port page : Nat) (s : State) : Outcome :=
  within (portOk port && decide (page < 4096)) (s.when (s.portUp port) fun s => s.biasClear port page)

/-- The host's BIRsp for a page (R329, R330): a back-invalidation ends, or the engine that waits on the page may go on. -/
def answerPage (page : Nat) (x : Port) : Port :=
  if x.clearing.contains page then
    { x with
      clearing := x.clearing.filter fun k => decide (k ≠ page),
      shared := x.shared.filter fun k => decide (k ≠ page) }
  else if x.shared.contains page ∧ !x.answered.contains page then { x with answered := x.answered ++ [page] }
  else x

/-- BIRSP. -/
def execBirsp (port page : Nat) (s : State) : Outcome :=
  within (portOk port && decide (page < 4096)) (s.when (s.portUp port) fun s => s.modPort port (answerPage page))

/-! ## Port down (R335, R336) -/

/-- Whether a write in the transmit queue belongs to a command's outputs. -/
def HostWrite.isOutputOf (w : HostWrite) (c : Nat) : Bool :=
  match w with
  | .output k _ _ => decide (k = c)
  | .completion _ _ _ => false
  | .fault _ _ _ => false
  | .windowRead _ _ => false

/-- Whether a write is a command's completion record. -/
def HostWrite.isRecordOf (w : HostWrite) (c : Nat) : Bool :=
  match w with
  | .completion k _ _ => decide (k = c)
  | .output _ _ _ => false
  | .fault _ _ _ => false
  | .windowRead _ _ => false

/-- The fault records among host writes. -/
def lostFaults (ws : List HostWrite) : List FaultRec :=
  ws.filterMap fun w => match w with
    | .fault _ _ r => some r
    | .output _ _ _ => none
    | .completion _ _ _ => none
    | .windowRead _ _ => none

/-- Fault records that did not reach the ring stay held, with their ring positions (R283, R336). -/
def FaultQueue.takeBack (q : FaultQueue) (rs : List FaultRec) : FaultQueue :=
  let firstId := (rs.find? fun r => decide (r.kind ≠ 0x7F)).map fun r => r.faultId
  { q with
    waiting := rs ++ q.waiting,
    written := q.written - rs.length,
    lastId := match firstId with
      | some i => i - 1
      | none => q.lastId }

/-- A ring of a port that goes down: DRAINING if it was not OFF, its doorbell line released (R336). RING_CTRL.ENABLE reads 0 from
then on: DESIGN CHOICE, since R336 stops the fetching and does not say what ENABLE shows (log 91). -/
def Ring.portDown (r : Ring) : Ring :=
  { r with
    enable := false,
    state := if r.state = 0 then 0 else 4,
    held := [],
    fetched := [],
    tries := 0,
    fetchDue := false,
    lineHeld := false }

/-- PORT_DOWN (R335, R336): the first `acked` writes of the transmit queue have been acknowledged (log 7), the rest are
discarded; rings drain; commands whose record is lost, or waits for ring space, receive shadow entries. -/
def State.portDown (s : State) (p acked : Nat) : State :=
  let x := s.port p
  if x.state = 0 then s
  else
    let lost := x.tx.drop acked
    let epoch := x.epoch + 1
    let held : List (Nat × CplRecord) := (List.range 64).flatMap fun r => (x.ring r).held
    let gone := x.unacked.filter fun u => lost.any fun w => w.isRecordOf u.cmd.id
    let mark := fun c : Cmd => if c.port = p then
        { c with
          down := some (c.down.getD epoch),
          lostOutput := c.lostOutput || lost.any fun w => w.isOutputOf c.id }
      else c
    let s1 := s.modPort p fun x =>
      { x with
        state := 0,
        epoch := epoch,
        tx := [],
        winWaits := x.winWaits.filter fun w => decide (w.len = 0),
        unacked := [],
        rings := x.rings.map fun r => (r.1, r.2.portDown) }
    let s2 := { s1 with cmds := s1.cmds.map mark }
    let s3 := s2.modFaults p fun q => q.takeBack (lostFaults lost)
    let s4 := s3.forEach gone fun t u => t.shadowEntry (mark u.cmd) u.record
    s4.forEach held fun t h =>
      match t.cmd h.1 with
      | some c => (t.shadowEntry c h.2).leave c
      | none => t

/-- HOT_RESET (R335). -/
def execHotReset (port acked : Nat) (s : State) : Outcome :=
  within (portOk port) (s.when s.up fun s => s.portDown port acked)

/-- FUNCTION_LEVEL_RESET (R335). -/
def execFunctionLevelReset (port acked : Nat) (s : State) : Outcome :=
  within (portOk port) (s.when s.up fun s => s.portDown port acked)

/-- D3HOT_ENTRY (R335). -/
def execD3hotEntry (port acked : Nat) (s : State) : Outcome :=
  within (portOk port) (s.when s.up fun s => s.portDown port acked)

/-- DL_DOWN (R335). -/
def execDlDown (port acked : Nat) (s : State) : Outcome :=
  within (portOk port) (s.when s.up fun s => s.portDown port acked)

/-- VIRAL (R322): received on a CXL link, and treated as a port down. -/
def execViral (port acked : Nat) (s : State) : Outcome :=
  within (portOk port) (s.when (s.up && (s.port port).cxl) fun s => s.portDown port acked)

/-- PERST (R336, R391, R392, R394): RESET_CAUSE.PERST and a port down; within a module-scope reset it is absorbed. -/
def execPerst (port acked : Nat) (s : State) : Outcome :=
  within (portOk port)
    (let t := { s with seqr := { s.seqr with perst := setBit s.seqr.perst port true } }
     t.when s.up fun t =>
       ({ t with ka := { t.ka with perst := setBit t.ka.perst port true } } : State).portDown port acked)

/-- LINK_RECOVERY (R334): RETRAINING while the link is in Recovery, and back to the state before it at L0; fault records raised
meanwhile are then written (R283). -/
def execLinkRecovery (port : Nat) (enter : Bool) (s : State) : Outcome :=
  within (portOk port)
    (s.when s.up fun s => (s.modPort port fun x =>
      if enter then (if x.state = 1 ∨ x.state = 2 then { x with state := 3, beforeRetrain := x.state } else x)
      else if x.state = 3 then { x with state := x.beforeRetrain } else x).flushFaults port)

/-- RECOVERY_TIMEOUT (R334): 100 ms of Recovery bring the port down. -/
def execRecoveryTimeout (port acked : Nat) (s : State) : Outcome :=
  within (portOk port) (s.when (s.up && decide ((s.port port).state = 3)) fun s => s.portDown port acked)

/-- HOST_LINK_UP (R323, R342): the link of a port that is down, or has not trained since reset, comes up DETACHED, with
the mode fixed until the next port down. In plain PCIe mode WIN_BIAS reads 0. -/
def execHostLinkUp (port : Nat) (cxl flit : Bool) (speed : BitVec 4) (width : BitVec 5) (s : State) : Outcome :=
  within (portOk port && hostLinkOk cxl flit speed width)
    (s.when (s.up && !(s.frame (s.portFrame port)).fenced &&
        (decide ((s.port port).state = 0) || (decide ((s.port port).state = 1) && decide ((s.port port).width = 0)))) fun s =>
      ({ s with seqr := { s.seqr with perst := setBit s.seqr.perst port false } } : State).modPort port fun x =>
        { x with
          state := 1,
          cxl := cxl,
          flit := flit,
          speed := speed,
          width := width,
          shared := if cxl then x.shared else [],
          clearing := if cxl then x.clearing else [] })

/-- ATTACH (R342, R343): a DETACHED port becomes ATTACHED, and the held fault records are written. -/
def State.attachPort (s : State) (p : Nat) (w : Word64) : State :=
  if w.getLsbD 0 ∧ (s.port p).state = 1 then (s.modPort p fun x => { x with state := 2 }).flushFaults p else s

/-- ATTACH. -/
def execAttach (port : Nat) (value : Word64) (s : State) : Outcome :=
  within (portOk port) (s.when (s.portUp port) fun s => s.attachPort port value)

/-! ## Writes that R446 tests -/

/-- A set-up BAR write that is discarded raises SETUP_ERRS by 1 (R446, R451). -/
def State.setupErr (s : State) (p : Nat) : State := s.modPort p fun x => { x with setupErrs := inc32 x.setupErrs }

/-- SHADOW_HEAD (R341, R446): it may pass only entries that are written. -/
def State.writeShadowHead (s : State) (p : Nat) (w : Word64) : State :=
  let x := s.port p
  let d := (w.extractLsb' 0 14 - x.shadowHead).toNat
  if d ≤ x.shadowUnread then
    s.modPort p fun x => { x with shadowHead := w.extractLsb' 0 14, shadowUnread := x.shadowUnread - d }
  else s.setupErr p

/-- SHADOW_HEAD_WRITE. -/
def execShadowHeadWrite (port : Nat) (value : Word64) (s : State) : Outcome :=
  within (portOk port) (s.when (s.portUp port) fun s => s.writeShadowHead port value)

/-- FAULT_RING_HEAD (R283, R446): 0 to 1,024, past written records only; records that waited for space are written. -/
def State.writeFaultHead (s : State) (n : Nat) (w : Word64) : State :=
  if !s.partExists n then s
  else
    let q := (s.part n).faults
    let h := bits w.toNat 10 0
    let d := (h + 1025 - q.ringHead) % 1025
    if 1024 < h ∨ q.unread < d then s.setupErr n
    else (s.modFaults n fun q => { q with ringHead := h, passed := q.passed + d }).flushFaults n

/-- FAULT_RING_HEAD_WRITE. -/
def execFaultRingHeadWrite (port : Nat) (value : Word64) (s : State) : Outcome :=
  within (portOk port) (s.when (s.portUp port) fun s => s.writeFaultHead port value)

end Sys2Proof.Machine
end

