-- ==== Sys2Proof/Machine/Commands.lean ====
section
/-! DEFINITION. Memory, fault, histogram and plain commands: MEM_PREFETCH, PAGE_SWITCH, MEM_ADVISE, TLB_INVALIDATE, FAULT_RESOLVE,
FAULT_ABORT, FAULT_QUERY, HIST_READ, FENCE_SIGNAL, NOP (R190, R204, R250, R251, R274, R276, R280, R282, R284, R301, R303). -/

namespace Sys2Proof.Machine

/-! ## Leaves of a range -/

/-- Where the leaf of a walk lies, and the size of its pages; meant for an address whose walk ends at a leaf. -/
def State.leafFrom (s : State) (va : Nat) : List (Nat × Nat) → Nat → Nat → Option (Place × Nat)
  | [], _, _ => none
  | (shift, nbits) :: rest, frame, off =>
    let p : Place := ⟨frame, .h, off + va / 2 ^ shift % 2 ^ nbits * 8⟩
    let e := s.devNat p 8
    if bitAt e 1 then some (p, 2 ^ shift) else s.leafFrom va rest (bits e 7 3) (bits e 63 8 * 256)

/-- The leaf of an address in partition `n`'s tree: its place, page size and word; none where the walk faults. -/
def State.leafPlace (s : State) (n va : Nat) : Option (Place × Nat × Nat) :=
  let r := (s.part n).live
  match s.walk n va with
  | .bad _ => none
  | .leaf _ => (s.leafFrom va [(39, 13), (30, 9), (21, 9), (16, 5)] r.ptFrame.toNat (r.ptOffset.toNat * 65536)).map fun q =>
      (q.1, q.2, s.devNat q.1 8)

/-- Drop a partition's translations of a range from every frame's cache (R250, R271, R274). -/
def State.dropTlb (s : State) (n va len : Nat) : State :=
  s.forEach (List.range 20) fun t k => t.modFrame k fun x => { x with
    tlb := x.tlb.filter fun e => !(decide (e.1 = n) && decide (va / 65536 ≤ e.2.1) && decide (e.2.1 * 65536 < va + len)) }

/-- A page of a range is held by a pin table of an admitted firing of the partition (R272). -/
def State.rangePinned (s : State) (n va len : Nat) : Bool :=
  let held := fun pins : List PinPage => pins.any fun g => (decide (va / 65536 ≤ g.page) && decide (g.page * 65536 < va + len))
  s.firings.any fun f => decide (f.part = n) && (held f.pins || match f.swap with
    | some q => held q.2.2
    | none => false)

/-! ## MEM_PREFETCH, PAGE_SWITCH (R250) -/

/-- The pages of a range that hold contents that can be copied, in ascending order: address, leaf, size, word. A page that lies in
part in the range belongs to it, and moves whole (log 50). -/
def State.rangePages (s : State) (n va len : Nat) : List (Nat × Place × Nat × Nat) :=
  (pagesOf va len).filterMap fun p =>
    let a := p * 65536
    match s.leafPlace n a with
    | none => none
    | some q => if (a % q.2.1 = 0 ∨ a = va) ∧ bits q.2.2 6 4 ≤ 2 then some (a / q.2.1 * q.2.1, q) else none

/-- Page frames of a page in tier H or tier L. -/
def leafFrames (word size : Nat) : List Unit64 :=
  let l := Leaf.ofWord word
  if l.loc ≤ 1 then (List.range (size / 65536)).map fun i => ⟨l.frame, Tier.ofNum l.loc, l.base / 65536 + i⟩ else []

/-- LOC and FRAME that an advice names (R251). -/
def Advice.dest (a : Advice) : Option (Nat × Nat) :=
  if a.kind = 1 ∨ (a.kind = 0 ∧ a.tier = 0) then some (2, 0)
  else if a.kind = 0 ∧ a.tier ≤ 2 then some (a.tier - 1, a.frame)
  else none

/-- The destination of a page: as the command names it, or by the latest advice on it (R250, R251). -/
def State.destOf (s : State) (x : Cmd) (va : Nat) : Option (Nat × Nat) :=
  match bits x.op2.toNat 1 0 with
  | 0 => some (2, 0)
  | 1 => some (0, bits x.op2.toNat 6 2)
  | 2 => some (1, bits x.op2.toNat 6 2)
  | _ => (s.part x.port).advice.reverse.findSome? fun a =>
      if !a.rows ∧ a.start ≤ va ∧ va < a.start + a.count then a.dest else none

/-- A page-aligned piece of a tier is free: in the tier, on a live frame of the partition, retired by no map-out, in no
mirrored range, not in use and no target of a switch under way (log 50). -/
def State.pieceFree (s : State) (n loc frame t size : Nat) (more : List PageMove) : Bool :=
  let tier := Tier.ofNum loc
  let clash := fun m : PageMove => decide (m.loc = loc ∧ m.frame = frame ∧ m.target < t + size / 65536 ∧
    t < m.target + m.size / 65536)
  inMask (s.part n).frames frame && !(s.frame frame).fenced && decide (t * 65536 + size ≤ tier.bytes) &&
    (List.range (size / 65536)).all (fun i =>
      let u : Unit64 := ⟨frame, tier, t + i⟩
      !s.mem.retired.contains u && !s.mem.restoring.contains u && !s.pageMirrored u && !s.pageInUse frame tier (t + i)) &&
    !more.any clash && s.cmds.all fun c => !c.targets.any clash

/-- A target that a page may be copied to. -/
def State.targetFree (s : State) (n loc frame t size : Nat) (more : List PageMove) : Bool :=
  decide (t * 65536 % size = 0) && (if loc = 2 then decide (t < 2 ^ 48) else s.pieceFree n loc frame t size more)

/-- Plan the switches of a range's pages to the targets that the kiln's allocator gives, in order; none where it gives a piece
that is not free. -/
def State.planMoves (s : State) (x : Cmd) : List PageMove → List (Nat × Place × Nat × Nat) → List Nat → Option (List PageMove)
  | done, [], _ => some done
  | _, _ :: _, [] => none
  | done, q :: qs, t :: ts =>
    match s.destOf x q.1 with
    | none => none
    | some d =>
      if s.targetFree x.port d.1 d.2 t q.2.2.1 done then
        s.planMoves x (done ++ [⟨q.1, q.2.1, q.2.2.1, q.2.2.2, d.1, d.2, t⟩]) qs ts
      else none

/-- The destinations have space for a list of pages: placed one after another, each at the last free piece (R250). -/
def State.hasRoom (s : State) (x : Cmd) : List PageMove → List (Nat × Place × Nat × Nat) → Bool
  | _, [] => true
  | done, q :: qs =>
    match s.destOf x q.1 with
    | none => false
    | some d =>
      if d.1 = 2 then s.hasRoom x done qs
      else match lastBelow (fun t => s.targetFree x.port d.1 d.2 t q.2.2.1 done) ((Tier.ofNum d.1).bytes / 65536) with
        | none => false
        | some t => s.hasRoom x (done ++ [⟨q.1, q.2.1, q.2.2.1, q.2.2.2, d.1, d.2, t⟩]) qs

/-- The largest pages first, so that the placement finds a place for all where there is one. -/
def bySize (pages : List (Nat × Place × Nat × Nat)) : List (Nat × Place × Nat × Nat) :=
  [30, 21, 16].flatMap fun k => pages.filter fun q => decide (q.2.2.1 = 2 ^ k)

/-- A leaf word with BUSY. -/
def busyWord (w : Nat) : Nat := if bitAt w 12 then w else w + 2 ^ 12

/-- The leaf word of a switched page: its flags with LOC, FRAME and ADDR of the copy; a page in host memory has no PIN
(R270; log 50). -/
def PageMove.newWord (m : PageMove) : Nat :=
  (if m.loc = 2 then bits m.word 2 0 else bits m.word 3 0) + m.loc * 2 ^ 4 + (if m.loc = 2 then 0 else m.frame) * 2 ^ 7 +
    m.target * 65536

/-- Write a leaf word, and drop the page's translations. -/
def State.writeLeaf (s : State) (n : Nat) (m : PageMove) (w : Nat) : State :=
  (s.writeDev m.leaf (leBytes 8 w)).dropTlb n m.va m.size

/-- Bytes of a list of pages, from the first to the last: they start and end where pages do. -/
def pagesSpan (va len : Nat) (pages : List (Nat × Place × Nat × Nat)) : Nat × Nat :=
  let lo := pages.foldl (fun m q => min m q.1) va
  (lo, pages.foldl (fun m q => max m (q.1 + q.2.2.1)) (va + len) - lo)

/-- MEM_PREFETCH: refused where a page is pinned by a firing or mirrored, or where space lacks; otherwise the pages of its range
wait for their switches. `targets` are the places that the kiln's allocator picks; it picks free ones (log 9). -/
def execMemPrefetch (c : Nat) (targets : List Nat) (s : State) : Outcome :=
  within true (s.when s.up fun s => s.onReady c 0x10 fun s x =>
    let va := x.op0.toNat
    let len := x.op1.toNat
    let pages := s.rangePages x.port va len
    let span := pagesSpan va len pages
    if s.rangePinned x.port span.1 span.2 ∨ pages.any (fun q => (leafFrames q.2.2.2 q.2.2.1).any s.pageMirrored) then s.refuse c 0x13
    else if !s.hasRoom x [] (bySize pages) then s.refuse c 0x14
    else match s.planMoves x [] pages targets with
    | none => s
    | some [] => s.completeOk c 0
    | some ms =>
      if ms.any (fun m => bitAt m.word 12) then s
      else (s.forEach ms fun t m => t.writeLeaf x.port m (busyWord m.word)).modCmd c fun y =>
        { y with phase := .busy, targets := ms, done := 0 })

/-- A MEM_PREFETCH stops: the pages not yet switched lose BUSY and keep their old copy (R306). -/
def State.stopPrefetch (s : State) (x : Cmd) : State :=
  (s.forEach x.targets fun t m => (t.writeLeaf x.port m m.word).retryWindow x.port).modCmd x.id fun y =>
    { y with targets := [] }

/-- Migration units of one page: on the frame that holds it and on the frame that takes it (R250, R351). -/
def State.chargeMove (s : State) (n : Nat) (m : PageMove) : Except Nat State :=
  let l := Leaf.ofWord m.word
  let frames := ((if l.loc ≤ 1 then [l.frame] else []) ++ if m.loc ≤ 1 then [m.frame] else [])
  frames.foldl (fun r f => match r with
    | .error e => .error e
    | .ok t => match t.chargePart n f 8 ((m.size + 63) / 64) with
      | none => .error f
      | some u => .ok u) (.ok s)

/-- Copy one burst of a page between tiers, its side bytes and its poison with it (R54, R241). -/
def State.copyBurst (s : State) (a b : Unit64) : State :=
  let t := s.writeBurst b (s.devBytes a.place 64) (s.sideBytes a)
  if s.badBurst a then t.poison b else t

/-- Copy a page to its target. -/
def State.copyPage (s : State) (x : Cmd) (m : PageMove) (host : List Byte) : State :=
  let l := Leaf.ofWord m.word
  let dst : Place := ⟨m.frame, Tier.ofNum m.loc, m.target * 65536⟩
  if l.loc ≤ 1 ∧ m.loc ≤ 1 then
    s.forEach (List.range (m.size / 64)) fun t i =>
      t.copyBurst { l.place.burst with num := l.place.burst.num + i } { dst.burst with num := dst.burst.num + i }
  else
    let bs := if l.loc ≤ 1 then s.devBytes l.place m.size else takeHost s.free m.size host
    let t := if l.loc ≤ 1 then s else { s with free := s.free + m.size }
    if m.loc ≤ 1 then t.writeDev dst bs else t.hostOutput x.port x.id (m.target * 65536) bs

/-- A shared window page of the range whose host lines have not come back yet (R329). -/
def State.pageShared (s : State) (n va len : Nat) : List Nat :=
  (pagesOf va len).filterMap fun p => s.sharedPage n (p * 65536)

/-- The next page of a MEM_PREFETCH is copied and switched as a whole. -/
def State.switchPage (s : State) (x : Cmd) (m : PageMove) (rest : List PageMove) (host : List Byte) : State :=
  let l := Leaf.ofWord m.word
  let shared := s.pageShared x.port m.va m.size
  if l.loc ≤ 1 ∧ !shared.all (fun p => (s.port x.port).answered.contains p) then s
  else if (l.loc = 2 ∨ m.loc = 2) ∧ !s.hostReachable x.port then
    ((s.stopPrefetch x).modCmd x.id fun y => { y with
      lostRead := y.lostRead || decide (l.loc = 2), lostOutput := y.lostOutput || decide (m.loc = 2) }).completeOk x.id
      (BitVec.ofNat 64 x.done)
  else match s.chargeMove x.port m with
  | .error f => s.holdTally x.port f 8
  | .ok t =>
    let t := (t.useAnswers x.port shared).copyPage x m host
    let t := (t.writeLeaf x.port m m.newWord).retryWindow x.port
    let t := t.modCmd x.id fun y => { y with targets := rest, done := y.done + 1 }
    if rest = [] then t.completeOk x.id (BitVec.ofNat 64 (x.done + 1)) else t

/-- PAGE_SWITCH: `hostData` is what host memory answers for a page that lies there. -/
def execPageSwitch (c : Nat) (hostData : List Byte) (s : State) : Outcome :=
  within true (s.when s.up fun s =>
    match s.cmd c with
    | none => s
    | some x =>
      match x.targets with
      | [] => s
      | m :: rest => s.when (decide (x.phase = .busy ∧ x.d.opcode = 0x10) && !s.cplHeld x) fun s => s.switchPage x m rest hostData)

/-! ## MEM_ADVISE (R251) -/

/-- What is left of an advice when `count` bytes or rows from `start` are taken out of it. -/
def Advice.cut (a : Advice) (rows : Bool) (table start count : Nat) : List Advice :=
  let fin := a.start + a.count
  if a.rows ≠ rows ∨ (rows ∧ a.table ≠ table) ∨ fin ≤ start ∨ start + count ≤ a.start then [a]
  else
    (if a.start < start then [{ a with count := start - a.start }] else []) ++
      if start + count < fin then [{ a with start := start + count, count := fin - (start + count) }] else []

/-- The advice that a command's operands spell. -/
def Cmd.advice (x : Cmd) : Advice where
  kind := bits x.op2.toNat 2 0
  rows := bitAt x.op2.toNat 3
  table := if bitAt x.op2.toNat 3 then bits x.op0.toNat 15 0 else 0
  start := if bitAt x.op2.toNat 3 then bits x.op0.toNat 63 32 else x.op0.toNat
  count := x.op1.toNat
  tier := bits x.op2.toNat 5 4
  frame := bits x.op2.toNat 10 6

/-- DISCARD of one 64 KiB page: without PIN and outside mirrored ranges its contents are lost and read 0. A page in host memory is
written with zeros over the port; one in a window of another module is not this module's to discard (log 108). -/
def State.discardPage (s : State) (c n va : Nat) : State :=
  match s.walk n va with
  | .bad _ => s
  | .leaf w =>
    let l := Leaf.ofWord w
    if l.loc ≤ 1 ∧ !l.pin ∧ !s.pageMirrored l.place.pageFrame then
      ({ s with mem := { s.mem with dram := s.mem.dram.zero l.place.key 65536 } } : State).clearPoison l.place 65536
    else if l.loc = 2 then s.hostOutput n c l.base (List.replicate 65536 0)
    else s

/-- The 64 KiB pages that lie whole in a range. -/
def wholePages (va len : Nat) : List Nat := (pagesOf va len).filter fun p => decide (va ≤ p * 65536 ∧ p * 65536 + 65536 ≤ va + len)

/-- Rows of a span of a table. -/
def spanRows (t : Table) (start count : Nat) : List Nat := (List.range (min count (t.desc.rows - start))).map fun i => start + i

/-- ROWS_HOT: the non-resident rows of the span join their frames' advice queues, in row order. -/
def State.adviseHot (s : State) (n : Nat) (a : Advice) : State :=
  match s.anyTable a.table with
  | none => s
  | some t => s.when (decide (t.owner = n)) fun s => s.forEach (spanRows t a.start a.count) fun s row =>
      match t.rowAt row with
      | none => s
      | some r => s.when (!s.entryBad r && !(s.entryAt r).present) fun s => s.modFrame r.shard.frame fun x =>
          if x.advice.contains ⟨a.table, row⟩ then x else { x with advice := x.advice ++ [⟨a.table, row⟩] }

/-- CLEAR: earlier advice on the range or span is gone, queued rows as well. -/
def State.clearAdvice (s : State) (n : Nat) (a : Advice) : State :=
  let t := s.modPart n fun p => { p with advice := p.advice.flatMap fun b => b.cut a.rows a.table a.start a.count }
  let own := match t.anyTable a.table with
    | some q => a.rows && decide (q.owner = n)
    | none => false
  t.when own fun t => t.forEach (List.range 20) fun t k => t.modFrame k fun x => { x with
    advice := x.advice.filter fun q => !(decide (q.table = a.table) && decide (a.start ≤ q.row ∧ q.row < a.start + a.count)) }

/-- Record an advice, and what it does at once. -/
def State.advise (s : State) (c n : Nat) (a : Advice) : State :=
  if a.kind = 5 then s.clearAdvice n a
  else if a.kind = 2 then (if a.rows then s else s.forEach (wholePages a.start a.count) fun t p => t.discardPage c n (p * 65536))
  else
    let t := s.modPart n fun p => { p with advice := p.advice ++ [a] }
    if a.kind = 3 ∧ a.rows then t.adviseHot n a else t

/-- MEM_ADVISE. -/
def execMemAdvise (c : Nat) (s : State) : Outcome :=
  within true (s.when s.up fun s => s.onReady c 0x11 fun s x => (s.advise c x.port x.advice).completeOk c 0)

/-! ## TLB_INVALIDATE (R274) -/

/-- Some inbound window of the partition pins a page of the range (R272, R285). -/
def State.windowPinned (s : State) (n va len : Nat) : Bool :=
  s.fabric.windows.any fun w => decide (w.2.part = n) && (Sparse.read [] s.fabric.winPins w.1).any fun g =>
    decide (va / 65536 ≤ g.page) && decide (g.page * 65536 < va + len)

/-- TLB_INVALIDATE: refused for a range with a pinned page; otherwise every cache drops the range, and the command completes once
the transfers that used its translations have finished. -/
def execTlbInvalidate (c : Nat) (s : State) : Outcome :=
  within true (s.when s.up fun s => s.onReady c 0x12 fun s x =>
    let va := x.op0.toNat
    let len := x.op1.toNat
    if s.rangePinned x.port va len || s.windowPinned x.port va len then s.refuse c 0x13
    else ((s.dropTlb x.port va len).modCmd c fun y => { y with phase := .busy }).settleTlb)

/-! ## Faults (R276, R280, R282, R284) -/

/-- FAULT_RESOLVE. -/
def execFaultResolve (c : Nat) (s : State) : Outcome :=
  within true (s.when s.up fun s => s.onReady c 0x18 fun s x =>
    match s.faultEntry x.port (x.op0.toNat % 2 ^ 32) with
    | none => s.refuse c 0x15
    | some e =>
      if e.kind = 0x05 ∨ e.kind = 0x06 ∨ e.answered then s.refuse c 0x15
      else (s.resolveEntry x.port e).completeOk c 0)

/-- FAULT_ABORT; an entry that the kiln resolves may be aborted. -/
def execFaultAbort (c : Nat) (s : State) : Outcome :=
  within true (s.when s.up fun s => s.onReady c 0x19 fun s x =>
    match s.faultEntry x.port (x.op0.toNat % 2 ^ 32) with
    | none => s.refuse c 0x15
    | some e => if e.answered then s.refuse c 0x15 else (s.abortEntry x.port e).completeOk c 0)

/-- A destination in device memory: pinned pages of the partition with room for `len` bytes (R301). -/
def State.outputPins (s : State) (n va len : Nat) : Option (List PinPage) :=
  match s.pinnedRange n va len with
  | none => none
  | some pins => if va + len ≤ 2 ^ 52 ∧ pins.all (fun g => g.write && !(s.frame g.place.frame).fenced) then some pins else none

/-- Write a command's output to pinned device memory and complete; on the secondary a write into a mirrored range fails (R96). -/
def State.deviceOutput (s : State) (c : Nat) (pins : List PinPage) (va : Nat) (bs : List Byte) (g : State → State) : State :=
  if (pinPieces pins va bs.length).any (fun q => s.secondaryBars q.1 q.2) then s.completeFaulted c
  else g (s.pinWrite pins va bs)

/-- FAULT_QUERY: waiters and frames of an open entry, 16 B. -/
def execFaultQuery (c : Nat) (s : State) : Outcome :=
  within true (s.when s.up fun s => s.onReady c 0x1A fun s x =>
    let va := x.op1.toNat
    match s.outputPins x.port va 16, s.faultEntry x.port (x.op0.toNat % 2 ^ 32) with
    | none, _ => s.refuse c 0xF0
    | some _, none => s.refuse c 0x15
    | some pins, some e =>
      s.deviceOutput c pins va (leBytes 4 e.waiters.length ++ leBytes 4 (s.waiterFrames x.port e) ++ leBytes 8 0) fun t =>
        t.completeOk c 0)

/-! ## HIST_READ (R189, R190, R204) -/

/-- LOW of a histogram unit on a frame, as the histogram table of that frame holds it (R187, R190). -/
def Image.histLowOf (i : Image) (k u : Nat) : Nat :=
  match i.contents.histTable.find? fun q => decide (q.1 = k * 16 + u) with
  | some q => bits q.2.toNat 7 0
  | none => 0

/-- The 288 B of a unit's record on a frame (R190). -/
def Firing.histBytes (f : Firing) (k u : Nat) : List Byte :=
  let r := f.record k u
  leBytes 4 f.handle ++ leBytes 1 k ++ leBytes 1 u ++ leBytes 1 (f.img.histLowOf k u) ++ leBytes 1 (bit r.sat) ++
  leBytes 8 r.steps ++ leBytes 16 0 ++ (List.range 32).flatMap fun b => leBytes 8 (Sparse.read 0 r.bins b)

/-- Frames and units that a HIST_READ writes, in order: only frames of the firing's beads have records. -/
def Cmd.histUnits (x : Cmd) (f : Firing) : List (Nat × Nat) :=
  ((List.range 20).filter fun k => bitAt x.op1.toNat k && inMask f.img.beadFrames k).flatMap fun k =>
    ((List.range 16).filter fun u => bitAt x.op1.toNat (32 + u)).map fun u => (k, u)

/-- Some unit is read by a gradient rule of the firing. -/
def Firing.ruleReads (f : Firing) (us : List (Nat × Nat)) : Bool :=
  us.any fun q => f.img.rules.any fun r => decide (ruleUnit r = q.2) && inMask (ruleFrames r) q.1

/-- HIST_READ. -/
def execHistRead (c : Nat) (s : State) : Outcome :=
  within true (s.when s.up fun s => s.onReady c 0x20 fun s x =>
    s.onFiring x fun s f =>
      let us := x.histUnits f
      let va := x.op2.toNat
      let clear := bitAt x.op1.toNat 63
      if clear && f.ruleReads us then s.refuse c 0x17
      else match s.outputPins x.port va (288 * us.length) with
      | none => s.refuse c 0xF0
      | some pins => s.deviceOutput c pins va (us.flatMap fun q => f.histBytes q.1 q.2) fun t =>
          (t.when clear fun t => t.modFiring f.handle fun f =>
            us.foldl (fun f q => f.clearRecord q.1 q.2) f).completeOk c (BitVec.ofNat 64 us.length))

/-! ## FENCE_SIGNAL, NOP -/

/-- FENCE_SIGNAL (R303): no effect but its fence signal, which its completion gives. -/
def execFenceSignal (c : Nat) (s : State) : Outcome :=
  within true (s.when s.up fun s => s.onReady c 0x38 fun s _ => s.completeOk c 0)

/-- NOP (R301). -/
def execNop (c : Nat) (s : State) : Outcome :=
  within true (s.when s.up fun s => s.onReady c 0x3F fun s _ => s.completeOk c 0)

end Sys2Proof.Machine
end

