-- ==== Sys2Proof/Machine/Boot.lean ====
section
/-! DEFINITION. Power, clock, module-scope reset, the boot order, kiln firmware and the kiln master's succession: POWER_ON,
POWER_LOSS, RESET_PIN, RESET_PIN_RELEASE, THERMAL_TRIP, THERMAL_TRIP_END, CLK_LOSS, CLK_RETURN, AUX_VALID, KEEP_ALIVE_LOSS,
FW_CONFIRM (R19 to R21, R388 to R407, R416, R442, R471 to R473). -/

namespace Sys2Proof.Machine

/-! ## Kiln firmware (R401 to R404) -/

/-- A boot of a frame on which nothing fails. -/
def BootFrame.good : BootFrame := ⟨0, 0, true, true, true, false, [], [], 700⟩

/-- What a boot finds on frame `f`; nothing fails where no operand says so (log 53). -/
def bootOf (frames : List BootFrame) (f : Nat) : BootFrame := (frames[f]?).getD BootFrame.good

/-- Slot A or slot B. -/
def Kiln.slot (k : Kiln) (b : Bool) : FwSlot := if b then k.slotB else k.slotA

/-- Replace a slot. -/
def Kiln.setSlot (k : Kiln) (b : Bool) (x : FwSlot) : Kiln := if b then { k with slotB := x } else { k with slotA := x }

/-- What R403 asks of a slot beside what its image holds: the lowest SVN, and the key slots that are disabled. -/
structure FwRules where
  minSvn : Word32
  keysOff : Nat

/-- The rules in force: PROT_MIN_SVN, KEY_FUSE_OFF and PROT_KEY_DISABLE. -/
def State.fwRules (s : State) : FwRules := ⟨s.seqr.protMinSvn, s.seqr.keyFuseOff.toNat ||| s.seqr.protKeyDisable.toNat⟩

/-- MAGIC, FORMAT and KIND are as R402 gives, and PAYLOAD_BYTES and ENTRY lie within the slot. -/
def fwFormOk (m : FwForm) : Bool :=
  decide (m.magic = 0x4E565250 ∧ m.format = 1 ∧ m.kind = 1 ∧ m.payloadBytes.toNat ≤ 2088960 ∧ m.entry.toNat < 2088960)

/-- How R403 ends on a slot: its header, its key slot, what is found of its keys, signatures and digest, its SVN (log 10). -/
def FwSlot.verdict (x : FwSlot) (r : FwRules) (found : SlotCheck) : Nat :=
  if !fwFormOk x.form then 5
  else if 3 < x.form.keySlot.toNat ∨ bitAt r.keysOff x.form.keySlot.toNat then 2
  else if found ≠ 0 then found
  else if x.svn < r.minSvn then 3
  else 0

/-- The boot ROM's last try: a slot that must be VALID. -/
def Kiln.tryOther (k : Kiln) (b : Bool) (r : FwRules) (found : SlotCheck) (err : Nat) : Kiln × Nat :=
  if (k.slot b).state ≠ 1 then ({ k with verified := false }, if err = 0 then 7 else err)
  else
    let v := (k.slot b).verdict r found
    if v = 0 then ({ k with runningB := b, verified := true }, err)
    else ({ (k.setSlot b { (k.slot b) with state := 3 }) with verified := false }, v)

/-- The boot ROM (R404): the preferred slot if it is VALID or TRIAL, otherwise, or where that fails, the other if VALID. -/
def Kiln.rom (k : Kiln) (r : FwRules) (slotA slotB : SlotCheck) : Kiln × Nat :=
  let p := k.preferB
  let found := fun b : Bool => if b then slotB else slotA
  if (k.slot p).state = 1 ∨ (k.slot p).state = 2 then
    let v := (k.slot p).verdict r (found p)
    if v = 0 then ({ k with runningB := p, verified := true }, 0)
    else (k.setSlot p { (k.slot p) with state := 3 }).tryOther (!p) r (found !p) v
  else k.tryOther (!p) r (found !p) 0

/-- FW_STATUS_f as the kiln brings it up to date (R416, R448). -/
def Kiln.show (k : Kiln) (err : Nat) : Kiln :=
  { k with shown := ⟨k.slotA.state, k.slotB.state, k.runningB, k.preferB, false, err, (k.slot k.runningB).svn,
    (k.slot k.runningB).ifLevel⟩ }

/-- Change the kiln of a frame. -/
def State.modKiln (s : State) (f : Nat) (g : Kiln → Kiln) : State := s.modFrame f fun x => { x with kiln := g x.kiln }

/-- Boot steps 4 and 5 of one kiln. -/
def State.bootKiln (s : State) (f : Nat) (b : BootFrame) : State :=
  s.modKiln f fun k =>
    let r := k.rom s.fwRules b.slotA b.slotB
    Kiln.show { r.1 with absent := false } r.2

/-- FW_STATUS_f.ABSENT is shown at once (R416; log 54). -/
def State.showAbsent (s : State) (f : Nat) (b : Bool) : State := s.modKiln f fun k => { k with shown := { k.shown with absent := b } }

/-! ## The kiln master (R19, R20) -/

/-- A port frame whose kiln may be kiln master. -/
def State.eligible (s : State) (p : Nat) : Bool :=
  let x := s.frame (s.portFrame p)
  !x.fenced && !x.kiln.absent && x.kiln.verified

/-- The next eligible port frame after a port, in cyclic order. -/
def State.successorOf (s : State) (p : Nat) : Option Nat :=
  (([1, 2, 3].map fun k => (p + k) % 4).find? s.eligible).map s.portFrame

/-- The module has no kiln master (R21); an SMBus command that waited for one ends with STATUS 4 (R475; log 67). -/
def State.loseMaster (s : State) : State :=
  ({ s with
    master := ⟨0, true, false, none⟩,
    smbus := if s.smbus.waiting.isSome then { s.smbus with waiting := none, result := 4 } else s.smbus } : State).alert 1

/-- The role starts to move to the old master's successor, which takes it at the next quiescent point of every frame; with no
kiln eligible the module has none until one returns (R20; log 55). -/
def State.startHandover (s : State) : State :=
  match s.successorOf ((s.framePort s.master.frame).getD 0) with
  | none => (s.dropAction fun a => decide (a = .masterMove)).loseMaster
  | some k =>
    (({ s with master := { s.master with moving := true, successor := some k } } : State).requestAction
      (BitVec.ofNat 20 (2 ^ 20 - 1)) .masterMove).alert 1

/-- Kiln `k` becomes the kiln master: the rules' sums, counts read and holds start anew (R19, R203), and the accounting writes that
waited go on. -/
def State.takeMaster (s : State) (k : Nat) : State :=
  ({ s with
    master := ⟨k, false, false, none⟩,
    firings := s.firings.map fun f : Firing => { f with
      rules := f.rules.map fun r : RuleState => { r with sums := [], narrow := [], read := none } } } : State).writeRecords

/-- The successor takes the role: the rules of every training firing start their sums anew (R20, R203). A successor that is
no longer eligible gives way to the next. -/
def State.finishHandover (s : State) : State :=
  match s.master.successor with
  | none => s
  | some k =>
    let p := (s.framePort k).getD 0
    let k' := if s.eligible p then some k else s.successorOf p
    match k' with
    | none => s.loseMaster
    | some k => (s.takeMaster k).alert 1

/-- At boot: the lowest port whose kiln is verified, or the next that is still there (R19, R20). -/
def State.electMaster (s : State) : State :=
  match (List.range 4).find? fun p => (s.frame (s.portFrame p)).kiln.verified with
  | none => s.loseMaster
  | some p =>
    match (if s.eligible p then some (s.portFrame p) else s.successorOf p) with
    | none => s.loseMaster
    | some k => { s with master := ⟨k, false, false, none⟩ }

/-! ## Module-scope reset (R392, R393) -/

/-- What a frame keeps: the rod map, the kiln's flash slots and the calibration tables in flash. -/
def Frame.kept (x : Frame) : Frame :=
  { Frame.reset with
    groups := x.groups.map fun g => (g.1, { g.2 with missed := [] }),
    cone := { Cone.reset with
      tableRate := x.cone.tableRate, tablePower := x.cone.tablePower,
      nextRate := x.cone.nextRate, nextPower := x.cone.nextPower },
    kiln := { x.kiln with
      runningB := Kiln.reset.runningB, absent := false, verified := false, rods := Kiln.reset.rods,
      shown := FwShown.reset } }

/-- What a bay keeps: the cartridge's contents (log 56). -/
def BayState.kept (b : BayState) : BayState :=
  { BayState.reset with
    serial := b.serial, written := b.saved, saved := b.saved, held := b.held, rows := b.rows, stale := b.stale, ckpts := b.ckpts }

/-- Life counters of the last 16 cartridges, with one brought up to date (R434). -/
def putLife (l : List (BitVec 128 × Nat)) (serial : BitVec 128) (n : Nat) : List (BitVec 128 × Nat) :=
  let m := l.filter fun p => decide (p.1 ≠ serial)
  m.drop (m.length - 15) ++ [(serial, n)]

/-- The counters of the cartridges in the bays as flash holds them (R434). -/
def State.saveLives (s : State) : State :=
  let put := fun (l : List (BitVec 128 × Nat)) (b : BayState) => if b.cart.isSome then putLife l b.serial b.saved else l
  { s with lives := put (put s.lives s.bayA) s.bayB }

/-- The state that a module-scope reset reaches at once: every port down, nothing running, every register outside the
keep-alive domain at its reset value, the RWL fields at their fuse values. -/
def State.resetBase (s : State) (phase : BootPhase) : State :=
  let s := s.saveLives
  { State.reset with
    pending := s.pending,
    frames := (List.range 20).foldl (fun m f => Sparse.write Frame.reset m f (s.frame f).kept) [],
    ports := (List.range 4).foldl (fun m p => Sparse.write Port.reset m p { Port.reset with state := 0 }) [],
    nextCmd := s.nextCmd,
    master := ⟨0, true, false, none⟩,
    ka := s.ka,
    seqr := { s.seqr with
      phase := phase, protLocked := false, protMinSvn := s.seqr.svnFloor, protKeyDisable := s.seqr.keyFuseOff },
    twin := { Twin.reset with journalEpoch := s.twin.journalEpoch },
    bayA := s.bayA.kept,
    bayB := s.bayB.kept,
    lives := s.lives,
    calReplaced := s.calReplaced,
    calSet := s.calSet,
    calCorrupt := s.calCorrupt,
    calGeneration := s.calGeneration,
    smbus := { Smbus.reset with alert := decide (s.calCorrupt ≠ 0), sources := if s.calCorrupt = 0 then 0 else 8 },
    free := s.free }

/-! ## The boot order (R396, R397) -/

/-- Some module-scope source is asserted (R393). -/
def State.sourceHeld (s : State) : Bool := s.seqr.resetPin || s.seqr.thermal || s.seqr.twinFence

/-- Page frames of a tier; the last one may lie in it only in part. -/
def tierPages (t : Tier) : Nat := (t.bytes + 65535) / 65536

/-- Page frames that a channel's controller serves with `k` of its channels out: all of its range, or those that the channels left
hold (R228, R245). -/
def keptPages (c k : Nat) : Nat := if k = 0 then (tierPages .h + 7 - c / 4) / 8 else (4 - k) * 3000000000 / 65536

/-- Page frames that lose a channel or their package (R245). -/
def affectedPages (u : MemUnit) : List Nat :=
  match u with
  | .channel c => (List.range (keptPages c 0)).map fun i => c / 4 + 8 * i
  | .package p => (List.range ((tierPages .l + 3 - p) / 4)).map fun i => p + 4 * i

/-- Page frames that a map-out retires: the top quarter of the controller's range for each of its channels, or all of the
package's (R245, R246). `k` quarters of the controller are out already. -/
def retiredPages (u : MemUnit) (k : Nat) : List Nat :=
  match u with
  | .channel c => (List.range (keptPages c k - keptPages c (k + 1))).map fun i => c / 4 + 8 * (keptPages c (k + 1) + i)
  | .package _ => affectedPages u

/-- Channels of a channel's controller that were mapped out before it. -/
def FrameMem.outOn (m : FrameMem) (c : Nat) : Nat :=
  ((m.chOut.takeWhile fun d => decide (d ≠ c)).filter fun d => decide (d / 4 = c / 4)).length

/-- A channel or package that fails training at boot is mapped out; memory holds nothing yet. -/
def State.bootMapOut (s : State) (f : Nat) (u : MemUnit) : State :=
  let m := (s.frame f).mem
  let t := s.modFrame f fun x => { x with mem := match u with
    | .channel c => { m with chOut := m.chOut ++ [c] }
    | .package p => { m with pkgOut := m.pkgOut ++ [p] } }
  let tier := match u with
    | .channel _ => Tier.h
    | .package _ => Tier.l
  let k := match u with
    | .channel c => m.outOn c
    | .package _ => 0
  { t with mem := { t.mem with retired := t.mem.retired ++ (retiredPages u k).map fun p => ⟨f, tier, p⟩ } }

/-- The record of a frame in a calibration set (R439). -/
def calRecord (set : List Byte) (f : Nat) : List Byte := (set.drop (64 + 2048 * f)).take 2048

/-- A field of the record of frame `f` of the set in flash. -/
def State.calField (s : State) (f off n : Nat) : List Byte := ((calRecord s.calSet f).drop off).take n

/-- A cone table of a new calibration set comes into force (R441). -/
def Frame.newTable (x : Frame) : Frame :=
  { x with cone := { x.cone with
      tableRate := x.cone.nextRate.getD x.cone.tableRate, tablePower := x.cone.nextPower.getD x.cone.tablePower,
      nextRate := none, nextPower := none } }

/-- The same on a frame of the module, with its thermal offsets: CORRUPT clears where the set in flash is new. -/
def State.takeTable (s : State) (f : Nat) : State :=
  let t := if (s.frame f).cone.nextRate.isSome then
      ({ s with calCorrupt := setBit s.calCorrupt f false } : State).modFrame f fun x => { x with cal := { x.cal with
        generic := false, offsets := s.calField f 0xE8 64 } }
    else s
  t.modFrame f Frame.newTable

/-- The IVR trims at a ramp, and the PHY seeds at the training of the frame's memory (R441). -/
def State.trainCal (s : State) (f : Nat) : State :=
  s.modFrame f fun x => { x with cal := { x.cal with trims := s.calField f 0x128 32, phy := s.calField f 0x148 1024 } }

/-- The calibration record of a frame at boot: one that fails its CRC gives way to the boot ROM's record (R442). -/
def State.loadCal (s : State) (f : Nat) (good : Bool) : State :=
  let t := s.takeTable f
  if good && !inMask t.calCorrupt f then
    (t.modFrame f fun x => { x with cal := { x.cal with generic := false, offsets := t.calField f 0xE8 64 } }).trainCal f
  else (({ t with calCorrupt := setBit t.calCorrupt f true } : State).modFrame f fun x => { x with
    cone := { x.cone with tableRate := Cone.reset.tableRate, tablePower := Cone.reset.tablePower },
    cal := ⟨true, List.replicate 64 0, [], [], []⟩ }).alert 3

/-- Boot steps 5 to 8 of one frame: a frame that fails one is fenced (R397). -/
def State.bootFrame (s : State) (f : Nat) (b : BootFrame) : State :=
  let t := (s.bootKiln f b).substituteFrame f
  let t := t.1.loadCal f b.cal
  if !(t.frame f).kiln.verified ∨ !b.ramp ∨ !b.cone ∨ b.rate < 700 ∨ b.memFails then
    (t.modFrame f fun x => { x with fenced := true }).showAbsent f true
  else t.modFrame f fun x => { x with fenced := false, cone := { x.cone with mv := 550, rate := b.rate % 1024 } }

/-- Steps 4 to 10: the protection commit, every kiln, the kiln master, memory, the twin role, the ports. -/
def State.bootOn (s : State) (frames : List BootFrame) : State :=
  let t : State := { s with seqr := { s.seqr with protLocked := true, tripped := false } }
  let t := t.forEach (List.range 20) fun t f => t.bootFrame f (bootOf frames f)
  if (List.range 4).all fun p => !(t.frame (t.portFrame p)).kiln.verified then
    { t with master := ⟨0, true, false, none⟩, seqr := { t.seqr with phase := .step5 } }
  else
    let t := t.forEach (List.range 20) fun t f =>
      let b := bootOf frames f
      t.when (!(t.frame f).fenced) fun t =>
        (t.forEach ((b.channels.filter (· < 32)).eraseDups) fun t c => t.bootMapOut f (.channel c)).forEach
          ((b.packages.filter (· < 4)).eraseDups) fun t p => t.bootMapOut f (.package p)
    let t := t.electMaster
    let t := t.forEach (List.range 4) fun t p => t.modPort p fun x => { x with
      state := if (t.frame (t.portFrame p)).fenced then 0 else 1 }
    { t with
      twin := { t.twin with role := if t.twin.paired then 0 else 1 },
      seqr := { t.seqr with phase := .run } }

/-- From step 2: held at the end of step 3 by an asserted source or BOOT_HOLD, otherwise on to step 10. -/
def State.runBoot (s : State) (frames : List BootFrame) : State :=
  if s.sourceHeld || s.ka.bootHold then { s with seqr := { s.seqr with phase := .step3 } } else s.bootOn frames

/-- The supplies and the clock are there, so sources are sampled (R388, R389). -/
def State.sampled (s : State) : Bool := s.seqr.v48 && s.seqr.clock && decide (s.seqr.phase ≠ .off ∧ s.seqr.phase ≠ .step1)

/-- One more module-scope reset. -/
def KeepAlive.counted (k : KeepAlive) : KeepAlive := { k with countModule := inc32 k.countModule }

/-- A module-scope reset by a source that marks RESET_CAUSE (R391 to R394). -/
def State.moduleScope (s : State) (mark : KeepAlive → KeepAlive) (frames : List BootFrame) : State :=
  ({ s with ka := mark s.ka.counted } : State).resetBase .step3 |>.runBoot frames

/-- Causes of the sources that are asserted when the sequencer samples them (R389). -/
def State.markHeld (s : State) : State :=
  { s with ka := { s.ka with
      resetPin := s.ka.resetPin || s.seqr.resetPin,
      thermal := s.ka.thermal || s.seqr.thermal,
      twinFence := s.ka.twinFence || s.seqr.twinFence } }

/-- A power-on reset from step 2; the first one after the keep-alive domain came up finds it at its reset values. -/
def State.powerReset (s : State) (frames : List BootFrame) : State :=
  let ka := if s.seqr.fresh then s.ka else { s.ka.counted with por := true }
  ((({ s with ka := ka, seqr := { s.seqr with fresh := false } } : State).markHeld).resetBase .step3).runBoot frames

/-! ## Power and clock -/

/-- The keep-alive domain powers up (boot step 1). -/
def State.wakeKeepAlive (s : State) : State :=
  if s.seqr.kaUp then s else { s with ka := KeepAlive.reset, seqr := { s.seqr with kaUp := true, fresh := true } }

/-- POWER_ON (R391, R392, R396, R472): the 48 V input becomes valid; without a clock the module stays at step 1. -/
def execPowerOn (frames : List BootFrame) (s : State) : Outcome :=
  within true (s.when (!s.seqr.v48) fun s =>
    let t := ({ s with seqr := { s.seqr with v48 := true, supercap := true } } : State).wakeKeepAlive
    if t.seqr.clock then t.powerReset frames else { t with seqr := { t.seqr with phase := .step1 } })

/-- POWER_LOSS (R472, R473): every supply but the keep-alive domain goes, and that as well with no AUX and an empty
supercapacitor. -/
def execPowerLoss (s : State) : Outcome :=
  within true (s.when s.seqr.v48 fun s =>
    let t := s.resetBase .off
    { t with seqr := { t.seqr with v48 := false, kaUp := t.seqr.kaUp && (t.seqr.aux || t.seqr.supercap) } })

/-- AUX_VALID (R396, R473): the keep-alive domain powers up, and the supercapacitor charges. -/
def execAuxValid (s : State) : Outcome :=
  within true ({ s with seqr := { s.seqr with aux := true, supercap := true } } : State).wakeKeepAlive

/-- KEEP_ALIVE_LOSS (R473): neither AUX nor 48 V is there, and the supercapacitor is exhausted. -/
def execKeepAliveLoss (s : State) : Outcome :=
  within true (s.when (!s.seqr.v48) fun s =>
    { s with ka := KeepAlive.reset, seqr := { s.seqr with aux := false, supercap := false, kaUp := false, tripped := false } })

/-- CLK_LOSS (R390): the keep-alive domain removes the supplies; the module waits for the clock. -/
def execClkLoss (s : State) : Outcome :=
  within true (s.when s.seqr.clock fun s =>
    let t : State := { s with seqr := { s.seqr with clock := false } }
    t.when (s.seqr.v48 && decide (s.seqr.phase ≠ .off)) fun t =>
      ({ t with ka := { t.ka with clkLoss := true } } : State).resetBase .step1)

/-- CLK_RETURN (R389, R390): a module that waits at step 1 runs a power-on reset from step 2. -/
def execClkReturn (frames : List BootFrame) (s : State) : Outcome :=
  within true (s.when (!s.seqr.clock) fun s =>
    let t : State := { s with seqr := { s.seqr with clock := true } }
    t.when (s.seqr.v48 && decide (s.seqr.phase = .step1)) fun t => t.powerReset frames)

/-! ## Sources -/

/-- RESET_PIN (R391, R393): the module resets, and is held at the end of step 3. -/
def execResetPin (s : State) : Outcome :=
  within true (s.when (!s.seqr.resetPin) fun s =>
    let t : State := { s with seqr := { s.seqr with resetPin := true } }
    t.when t.sampled fun t => t.moduleScope (fun k => { k with resetPin := true }) [])

/-- RESET_PIN_RELEASE (R393). -/
def execResetPinRelease (frames : List BootFrame) (s : State) : Outcome :=
  within true (s.when s.seqr.resetPin fun s =>
    let t : State := { s with seqr := { s.seqr with resetPin := false } }
    t.when (decide (t.seqr.phase = .step3)) fun t => t.runBoot frames)

/-- A thermal trip (R236, R239, R391, R393): the source stays asserted until every sensor has cooled. -/
def State.trip (s : State) : State :=
  s.when (!s.seqr.thermal) fun s =>
    let t : State := { s with seqr := { s.seqr with thermal := true, tripped := true } }
    t.when t.sampled fun t => t.moduleScope (fun k => { k with thermal := true }) []

/-- THERMAL_TRIP: a junction, a stack or a package above 105 °C. -/
def execThermalTrip (cause : TripCause) (s : State) : Outcome :=
  within true (match cause with
    | .junction | .stack | .package => s.trip)

/-- THERMAL_TRIP_END (R393). -/
def execThermalTripEnd (frames : List BootFrame) (s : State) : Outcome :=
  within true (s.when s.seqr.thermal fun s =>
    let t : State := { s with seqr := { s.seqr with thermal := false } }
    t.when (decide (t.seqr.phase = .step3)) fun t => t.runBoot frames)

/-! ## Firmware -/

/-- FW_CONFIRM (R404): firmware that runs from a TRIAL slot makes it VALID. -/
def execFwConfirm (frame : Nat) (s : State) : Outcome :=
  within (frameOk frame) (s.when (s.kilnActs frame) fun s => s.modKiln frame fun k =>
    let x := k.slot k.runningB
    if x.state = 2 then (k.setSlot k.runningB { x with state := 1 }).show k.shown.lastErr else k)

end Sys2Proof.Machine
end

