-- ==== Sys2Proof/Machine/RowMoves.lean ====
section
/-! DEFINITION. The kiln's copies of rows: relocation, promotion, moves to tier F, decay of counters (R58, R70, R71, R92, R95,
R247, R249, R251, R483). -/

namespace Sys2Proof.Machine

/-! ## Recoding (R92) -/

/-- Block `k` of a row image: its glaze code and bytes. -/
def imageBlock (img : RowImage) (k : Nat) : Nat × List Byte :=
  let n := blockBytes (clsNum img.cls)
  ((img.glaze.getD k 0).toNat, (img.blocks.drop (k * n)).take n)

/-- One block in another class under another row scale: dequantised, and quantised as R84 does; whether CARRY_SAT counts it (R85,
R181). -/
def recodeBlock (cls scale newCls newScale : Nat) (b : Nat × List Byte) : Byte × List Byte × Bool :=
  let s := combined b.1 scale
  let vs := (blockCodes cls b.2).map fun c => dequantise (clsFmt cls) c s
  let q := quantBlock (clsFmt newCls) b.1 newScale vs
  (BitVec.ofNat 8 q.1, packCodes newCls q.2.1, q.2.2.1 || q.2.2.2)

/-- The blocks of a row image in another class under another row scale. -/
def recodeBlocks (img : RowImage) (cls : WidthClass) (scale : BitVec 16) : List (Byte × List Byte × Bool) :=
  (List.range img.glaze.length).map fun k =>
    recodeBlock (clsNum img.cls) img.scale.toNat (clsNum cls) scale.toNat (imageBlock img k)

/-- A row image in another class under another row scale. -/
def recode (img : RowImage) (cls : WidthClass) (scale : BitVec 16) : RowImage :=
  let bs := recodeBlocks img cls scale
  ⟨cls, scale, bs.map fun b => b.1, bs.flatMap fun b => b.2.1⟩

/-- CARRY_SAT after a recoding: one more for each block that it writes saturated (R85, R181). -/
def State.countRecode (s : State) (f : Nat) (img : RowImage) (cls : WidthClass) (scale : BitVec 16) : State :=
  s.modCounters f fun c => { c with
    carrySat := sat32 (c.carrySat + ((recodeBlocks img cls scale).filter fun b => b.2.2).length) }

/-- The primary, or a module without a twin, moves rows (R96). -/
def State.movesRows (s : State) : Bool := s.up && decide (s.twin.role = 1)

/-- A slot that a copy may take for a row: permitted, in the tier, free. -/
def State.slotOk (s : State) (f : Nat) (r : RowAt) (key : RowKey) (tier : Tier) (cls slot : Nat) : Bool :=
  r.table.desc.permits tier cls && s.slotFree f tier slot (rowBursts cls r.table.desc.blocks) key

/-- The kiln never takes a slot that a ROW_WRITE reserved, for any row (R484), and takes one only in mirrored ranges (R97). -/
def State.kilnSlotOk (s : State) (f : Nat) (r : RowAt) (key : RowKey) (tier : Tier) (cls slot : Nat) : Bool :=
  s.slotOk f r key tier cls slot && !s.slotHeld f tier slot (rowBursts cls r.table.desc.blocks) none &&
    s.slotMirrored ⟨f, tier, slot⟩ (rowBursts cls r.table.desc.blocks)

/-- Copy an image into a slot, apply the row's cold operations there, switch the entry, journal it, and let waiting
operations follow (R91, R92, R104; log 28). The old slot, if any, stays reserved (R95). -/
def State.copyAndSwitch (s : State) (f : Nat) (r : RowAt) (key : RowKey) (img : RowImage) (tier : Tier) (slot : Nat) : State :=
  let old := s.entryAt r
  let e : DirEntry := ⟨true, tier, clsNum img.cls, slot, img.scale.toNat⟩
  let t := ((s.writeRow (e.unit f) img).applyCold f r key.table key.row e).writeEntry r e
  let t := t.journalAppend (s.seqOf f) f key.table key.row false
    (.relocate (BitVec.ofNat 64 old.toNat) (BitVec.ofNat 64 e.toNat))
  (t.oldSlot f key r old).followRow f key.table key.row e

/-! ## Tier F (R247, R249) -/

/-- The bay that holds an extent. -/
def extentBay (ext : Nat) : Bay := if ext < 1875000000 then .a else .b

/-- The frame of a bay's saggar: port 0's or port 3's (R8). -/
def State.bayFrame (s : State) (b : Bay) : Nat :=
  match b with
  | .a => s.portFrame 0
  | .b => s.portFrame 3

/-- The twin's copy of a bay can be read, over the twin lanes of its frame (R249; log 56). -/
def State.twinReads (s : State) (b : Bay) : Bool := s.twin.paired && (s.frame (s.bayFrame b)).streamUp

/-- The row that an extent holds, from the bay, of which a rebuilding one has only what it has received, or from the twin's copy
of it; none where neither can be read (R249, R433). -/
def State.extentRow (s : State) (ext : Nat) : Option RowImage :=
  let b := s.bay (extentBay ext)
  let here := decide (b.state = 4 ∨ b.state = 5 ∨ b.state = 6) || (decide (b.state = 3) && !b.lacks.contains ext)
  if here || s.twinReads (extentBay ext) then Sparse.find b.rows ext else none

/-- Extents from `ext` up that a row needs are free, in a bay that takes rows. -/
def State.extentFree (s : State) (ext n : Nat) : Bool :=
  let b := s.bay (extentBay ext)
  b.takes && decide (n ≤ b.freeExtents) && decide (extentBay ext = extentBay (ext + n - 1)) &&
    decide (ext + n ≤ 3750000000) &&
    b.rows.all fun p => decide (ext + n ≤ p.1 ∨ p.1 + imageExtents p.2 ≤ ext)

/-- Put a row into tier F: the saggar's bytes count towards its life (R434). -/
def State.storeExtent (s : State) (ext : Nat) (img : RowImage) : State :=
  let k := extentBay ext
  let b := s.bay k
  (s.changeBay k (({ b with
    rows := Sparse.insert b.rows ext img,
    lacks := b.lacks.filter fun e => decide (e ≠ ext),
    stale := b.stale.filter fun p => decide (p.1 + imageExtents p.2 ≤ ext ∨ ext + imageExtents img ≤ p.1) } : BayState).wrote
      (imageExtents img * 8192))).copyToTwin (s.bayFrame k) (.extent ext img)

/-- A row leaves tier F; its extents hold what they held until they are written again (R109). -/
def State.freeExtent (s : State) (ext : Nat) : State :=
  let k := extentBay ext
  let b := s.bay k
  match Sparse.find b.rows ext with
  | some img => s.setBay k { b with rows := Sparse.erase b.rows ext, stale := Sparse.insert b.stale ext img }
  | none => s

/-- Promote a non-resident row into a slot (R70): its extents are free afterwards. -/
def State.promote (s : State) (f : Nat) (r : RowAt) (key : RowKey) (tier : Tier) (cls : WidthClass) (slot : Nat)
    (scale : BitVec 16) : Option State :=
  let ext := (s.entryAt r).slot
  match s.extentRow ext with
  | none => none
  | some img =>
    if img.cls = cls ∧ img.scale = scale then some ((s.copyAndSwitch f r key img tier slot).freeExtent ext)
    else some (((s.countRecode f img cls scale).copyAndSwitch f r key (recode img cls scale) tier slot).freeExtent ext)

/-- Neither tier F copy of a row can be read (R249). -/
def State.unreadable (s : State) : State := { s with tierfUnreadable := inc32 s.tierfUnreadable }

/-- Move a resident row to tier F by copy and switch: its entry reads PRESENT 0 with the extent (R56, R71). -/
def State.demote (s : State) (f : Nat) (r : RowAt) (key : RowKey) (ext : Nat) : State :=
  let e := s.entryAt r
  let img := s.readRow (e.unit f) e.cls r.table.desc.blocks e.scale
  let e' : DirEntry := { e with present := false, slot := ext }
  let t := ((s.storeExtent ext img).writeEntry r e').journalAppend (s.seqOf f) f key.table key.row false
    (.relocate (BitVec.ofNat 64 e.toNat) (BitVec.ofNat 64 e'.toNat))
  t.oldSlot f key r e

/-- Operations that wait in carry units for a row that has left tier H and tier L are recorded cold (R91, R92). -/
def State.coolRow (s : State) (f table row : Nat) : State :=
  let mine := fun j : CarryJob => decide (j.op.table.toNat = table ∧ j.op.row.toNat = row)
  let jobs := (List.range 12).flatMap fun u => ((s.frame f).carryUnit u).filter mine
  let t := s.forEach (List.range 12) fun t u => t.setCarry f u (((t.frame f).carryUnit u).filter fun j => !mine j)
  t.forEach jobs fun t j => (t.missOp f j.op j.src).getD (t.recordCold f j.op j.src)

/-- A resident row that the kiln may copy: a valid entry of a class that exists, no burst poisoned. -/
def State.copyable (s : State) (f : Nat) (r : RowAt) : Bool :=
  let e := s.entryAt r
  !s.entryBad r && e.present && decide (e.cls < 3) && !s.rowBad (e.unit f) e.cls r.table.desc.blocks

/-- RELOCATION (R92, R95, R483): a resident row into a free slot, class and row scale. -/
def State.relocate (s : State) (f table row : Nat) (tier : Tier) (cls : WidthClass) (slot : Nat) (scale : BitVec 16) : State :=
  match s.rowAt f table row with
  | none => s
  | some r =>
    s.when (decide (r.shard.frame = f) && s.copyable f r && s.kilnSlotOk f r ⟨table, row⟩ tier (clsNum cls) slot) fun s =>
      let e := s.entryAt r
      let img := s.readRow (e.unit f) e.cls r.table.desc.blocks e.scale
      (s.countRecode f img cls scale).copyAndSwitch f r ⟨table, row⟩ (recode img cls scale) tier slot

/-- RELOCATION. -/
def execRelocation (frame table row : Nat) (tier : Tier) (cls : WidthClass) (slot : Nat) (scale : BitVec 16) (s : State) :
    Outcome :=
  within (frameOk frame)
    (s.when (s.movesRows && !(s.frame frame).kiln.absent) fun s => s.relocate frame table row tier cls slot scale)

/-- A non-resident row that the kiln may promote into a slot. -/
def State.promotable (s : State) (f : Nat) (r : RowAt) (key : RowKey) (tier : Tier) (cls : WidthClass) (slot : Nat) : Bool :=
  decide (r.shard.frame = f) && !s.entryBad r && !(s.entryAt r).present &&
    s.kilnSlotOk f r key tier (clsNum cls) slot

/-- Tier H and tier L of a frame hold a free slot of a permitted tier and class for a row, in a mirrored range (R71, R97). -/
def State.hasSlot (s : State) (f : Nat) (r : RowAt) (key : RowKey) : Bool :=
  (s.frame f).mirrored.any fun m => (List.range 3).any fun cls => r.table.desc.permits m.tier cls &&
    (lastBelow (fun k => s.kilnSlotOk f r key m.tier cls (m.start * 1024 + k)) (m.count * 1024)).isSome

/-- ROWS_COLD advice of the row's partition covers it (R251). -/
def State.advisedCold (s : State) (r : RowAt) (key : RowKey) : Bool :=
  (s.part r.table.owner).advice.any fun a =>
    decide (a.kind = 4 ∧ a.table = key.table ∧ a.start ≤ key.row ∧ key.row < a.start + a.count) && a.rows

/-- No resident row of the frame is less popular than this one (R71). -/
def State.leastPopular (s : State) (f : Nat) (r : RowAt) : Bool :=
  (s.frame f).tables.all fun tb => (List.range tb.2.desc.rows).all fun row => match tb.2.rowAt row with
    | some q => !(decide (q.shard.frame = f) && s.copyable f q) || decide (s.devNat r.counter 2 ≤ s.devNat q.counter 2)
    | none => true

/-- The kiln may move a row to tier F: rows make room for promotions least popular first; ROWS_COLD advice lets it go ahead of the
policy (R71, R251). -/
def State.mayDemote (s : State) (f : Nat) (r : RowAt) (key : RowKey) : Bool :=
  decide ((s.frame f).promo = []) || s.advisedCold r key || s.leastPopular f r

/-- KILN_POLICY_MOVE (R58, R71, R92): a row to another slot, back from tier F, or to tier F (log 9). -/
def execKilnPolicyMove (frame table row : Nat) (target : RowTarget) (s : State) : Outcome :=
  within (frameOk frame)
    (s.when (s.movesRows && !(s.frame frame).kiln.absent) fun s =>
      match s.rowAt frame table row with
      | none => s
      | some r =>
        match target with
        | .slot tier cls slot scale =>
          if s.promotable frame r ⟨table, row⟩ tier cls slot then
            (s.promote frame r ⟨table, row⟩ tier cls slot scale).getD s.unreadable
          else s.relocate frame table row tier cls slot scale
        | .extent ext =>
          let e := s.entryAt r
          s.when (decide (r.shard.frame = frame) && s.copyable frame r && s.mayDemote frame r ⟨table, row⟩ &&
              s.extentFree ext (imageExtents (s.readRow (e.unit frame) e.cls r.table.desc.blocks e.scale))) fun s =>
            (s.demote frame r ⟨table, row⟩ ext).coolRow frame table row)

/-- The oldest request of the promotion queue, or of the advice queue, leaves. -/
def State.dropRequest (s : State) (f : Nat) (fromAdvice : Bool) : State :=
  s.modFrame f fun x => if fromAdvice then { x with advice := x.advice.drop 1 } else { x with promo := x.promo.drop 1 }

/-- PROMOTION (R70, R71, R91, R249, R251): the kiln takes the oldest request, reads the row from tier F, writes it into a free
slot and switches its entry. A request for a row that is resident by now leaves; one that no copy can serve leaves too. -/
def execPromotion (frame : Nat) (target : RowTarget) (fromAdvice : Bool) (s : State) : Outcome :=
  within (frameOk frame)
    (s.when (s.movesRows && !(s.frame frame).kiln.absent) fun s =>
      match (if fromAdvice then (s.frame frame).advice else (s.frame frame).promo) with
      | [] => s
      | key :: _ =>
        match s.rowAt frame key.table key.row, target with
        | none, _ => s.dropRequest frame fromAdvice
        | some r, .slot tier cls slot scale =>
          if (s.entryAt r).present then s.dropRequest frame fromAdvice
          else s.when (s.promotable frame r key tier cls slot) fun s =>
            ((s.promote frame r key tier cls slot scale).getD s.unreadable).dropRequest frame fromAdvice
        | some _, .extent _ => s)

/-- A request of the promotion queue finds no free slot (R71). -/
def State.lacksSlot (s : State) (f : Nat) (key : RowKey) : Bool :=
  match s.rowAt f key.table key.row with
  | some r => !(s.entryAt r).present && !s.hasSlot f r key
  | none => false

/-- PROMOTION_ROOM_TIMEOUT (R71): no slot is free, and room could not be made, in time or because tier F cannot take rows: the
oldest request is dropped. -/
def execPromotionRoomTimeout (frame : Nat) (s : State) : Outcome :=
  within (frameOk frame)
    (s.when (s.movesRows && !(s.frame frame).kiln.absent) fun s =>
      match (s.frame frame).promo with
      | [] => s
      | key :: _ => s.when (s.lacksSlot frame key) fun s =>
        (s.dropRequest frame false).modCounters frame fun c => { c with promoNoslot := inc32 c.promoNoslot })

/-- COUNTER_DECAY (R58): the kiln's indivisible write of a row's counter, to a value no larger. -/
def execCounterDecay (frame table row : Nat) (value : BitVec 16) (s : State) : Outcome :=
  within (frameOk frame)
    (s.when (s.up && !(s.frame frame).kiln.absent) fun s =>
      match s.rowAt frame table row with
      | none => s
      | some r => s.when (decide (value.toNat ≤ s.devNat r.counter 2)) fun s => s.writeDev r.counter (leBytes 2 value.toNat))

/-! ## KILN_FAULT_RESOLVE (R276, R483) -/

/-- What a miss fault waits for. -/
inductive MissState where
  | ready
  | waiting
  /-- neither copy in tier F can be read, or the entry holds CLASS 3 -/
  | lost
deriving DecidableEq, Repr

/-- No carry operation that waits on a fault finds a poisoned burst, its accumulator's included (R241). -/
def State.opsReady (s : State) (e : FaultEntry) : Bool :=
  e.waiters.all fun w => match w with
    | .channel r _ => (match (s.chan r 3).reqs with
      | q :: _ => (match q.kind with
        | .carry fr op src => s.opReady fr op src
        | _ => true)
      | [] => true)
    | .command _ => true

/-- The row of a miss fault as it is now: a row in tier F that neither copy gives can never be promoted, a position of an entry with
CLASS 3 is given up, and a carry operation on one is dispatched again, to be discarded (R83, R249, R276, R483). -/
def State.missState (s : State) (e : FaultEntry) : MissState :=
  let k := e.row
  match (s.anyTable k.1).bind fun t => t.rowAt k.2 with
  | none => .lost
  | some r =>
    let d := s.entryAt r
    if s.rowReady 0 r.shard.frame k.1 k.2 then (if s.opsReady e then .ready else .waiting)
    else if s.entryBad r then .waiting
    else if e.kind = 0x06 ∧ d.cls = 3 then .ready
    else if d.present then (if d.cls = 3 then .lost else .waiting)
    else if (s.extentRow d.slot).isNone then .lost
    else .waiting

/-- KILN_FAULT_RESOLVE: the kiln resolves a miss fault once the row can be read, and aborts it where it never can be (R276);
`readable` says which of the two it does, and a kiln does only the one that the row's state calls for. -/
def execKilnFaultResolve (part faultId : Nat) (readable : Bool) (s : State) : Outcome :=
  within (decide (part < 4)) (s.when s.up fun s =>
    match s.faultEntry part faultId with
    | none => s
    | some e =>
      s.when (decide (e.kind = 0x05 ∨ e.kind = 0x06)) fun s =>
        match s.missState e, readable with
        | .ready, true => s.resolveEntry part e
        | .lost, false => s.abortEntry part e
        | _, _ => s)

end Sys2Proof.Machine
end

