-- ==== Sys2Proof/Machine/Journal.lean ====
section
/-! DEFINITION. The journal's way to the saggars, gaps, checkpoints and replay (R103 to R109, R437, R462, R464). -/

namespace Sys2Proof.Machine

/-! ## Draining (R104, R437) -/

/-- The bay that a frame's records go to: A for frames 0 to 9, B for 10 to 19, the other one while it takes none (R104). -/
def State.bayFor (s : State) (f : Nat) : Option Bay :=
  let own := if f < 10 then Bay.a else Bay.b
  if (s.bay own).takes then some own else if (s.bay own.other).takes then some own.other else none

/-- JOURNAL_DRAIN: the port frame's kiln sends the next staged records of a frame to the proper bay. -/
def execJournalDrain (frame count : Nat) (s : State) : Outcome :=
  within (frameOk frame)
    (s.when s.up fun s =>
      match s.bayFor frame with
      | none => s
      | some k =>
        let bf := s.frame (s.bayFrame k)
        let j := (s.frame frame).journal
        let recs := (j.ring.drop j.sent).take count
        s.when (!bf.fenced && !bf.kiln.absent) fun s =>
          (s.setBay k { (s.bay k) with sent := (s.bay k).sent ++ recs }).modFrame frame fun x =>
            { x with journal := { x.journal with sent := x.journal.sent + recs.length } })

/-- A record that a saggar holds leaves the staging ring of its frame; an empty ring takes the size in force (R437, R464). -/
def Frame.dropRecord (x : Frame) (r : JournalRec) (mib : Nat) : Frame :=
  let j := x.journal
  if j.ring.contains r then
    let ring := j.ring.filter fun q => decide (q ≠ r)
    { x with journal := { j with
        ring := ring,
        sent := if (j.ring.take j.sent).contains r then j.sent - 1 else j.sent,
        ringBytes := j.ringBytes - journalLength r.body,
        sizeMib := if ring = [] then mib else j.sizeMib } }
  else x

/-- JOURNAL_ACK: the saggar acknowledges that its oldest records are durable. -/
def execJournalAck (bay : Bay) (count : Nat) (s : State) : Outcome :=
  within true
    (s.when (s.up && ((s.bay bay).takes || decide ((s.bay bay).state = 6))) fun s =>
      let b := s.bay bay
      let recs := b.sent.take count
      let bytes := recs.foldl (fun n r => n + journalLength r.body) 0
      (s.changeBay bay (({ b with sent := b.sent.drop count, held := b.held ++ recs } : BayState).wrote bytes)).forEach recs
        fun t r => t.modFrame r.frame fun x => x.dropRecord r t.mbLive.stageMib)

/-- GAP_RECORD (R107): space has returned, so the records lost are named. -/
def execGapRecord (frame : Nat) (s : State) : Outcome :=
  within (frameOk frame) (s.when (s.up && decide (s.twin.role = 1)) fun s => s.stageGap frame)

/-! ## Checkpoints (R108, R462) -/

/-- A local row of a shard as a checkpoint holds it. -/
def State.checkpointRow (s : State) (t : Table) (sh : ShardEntry) (i : Nat) : Word64 × Option RowImage :=
  match pinPlace t.pages (sh.directory + 8 * i) with
  | none => (0, none)
  | some p =>
    let w := s.devNat p 8
    let e := DirEntry.ofNat w
    (BitVec.ofNat 64 w,
      if e.present ∧ e.cls < 3 then some (s.readRow (e.unit sh.frame) e.cls t.desc.blocks e.scale) else none)

/-- Keep a shard's checkpoint, and drop the one before it. -/
def BayState.keep (b : BayState) (c : Checkpoint) : BayState :=
  { b with ckpts := (b.ckpts.filter fun d => decide (d.table ≠ c.table ∨ d.shard ≠ c.shard)) ++ [c] }

/-- A bay's saggar takes what the twin's copy, the primary, or its own volume holds: a journal record, a checkpoint, a cold row.
A row that it lacked is there now. -/
def BayState.take (b : BayState) : TwinRec → BayState
  | .journal r => { b with held := b.held ++ [r] }
  | .checkpoint c => b.keep c
  | .extent e i => { b with rows := Sparse.insert b.rows e i, lacks := b.lacks.filter fun x => decide (x ≠ e) }
  | .burst _ => b

/-- Bytes of a copy in a saggar. -/
def copyBytes : TwinRec → Nat
  | .journal r => journalLength r.body
  | .checkpoint c => c.rows.foldl (fun n r => n + rowBytes r) 0
  | .extent _ i => imageExtents i * 8192
  | .burst _ => 0

/-- The bay that a copy goes to, bay for bay (R104). -/
def State.copyBay (s : State) : TwinRec → Option Bay
  | .journal r => s.bayFor r.frame
  | .checkpoint c => s.bayFor c.frame
  | .extent e _ => if (s.bay (extentBay e)).takes then some (extentBay e) else none
  | .burst _ => none

/-- A journal record of the primary goes on the secondary's own sequence (R105), holds its last epoch (R382), and frees the
extent of a row that was promoted. -/
def State.noteRecord (s : State) (r : JournalRec) : State :=
  let t := s.modFrame r.frame fun x => { x with journal := { x.journal with nextJseq := max x.journal.nextJseq (r.jseq + 1) } }
  match r.body with
  | .epochStart _ e _ => { t with twin := { t.twin with journalEpoch := BitVec.ofNat 16 e } }
  | .relocate a b => if (DirEntry.ofNat a.toNat).present ∨ !(DirEntry.ofNat b.toNat).present then t
      else t.freeExtent (DirEntry.ofNat a.toNat).slot
  | _ => t

/-- The secondary writes a copy from the primary to its own saggars (R104); with `bay`, the copy goes to that bay alone. -/
def State.putCopy (s : State) (bay : Option Bay) (c : TwinRec) : State :=
  let t := match (if bay.isSome then bay else s.copyBay c) with
    | some k => s.changeBay k (((s.bay k).take c).wrote (copyBytes c))
    | none => s
  match bay, c with
  | none, .journal r => t.noteRecord r
  | _, _ => t

/-- The checkpoint in progress, if one is, has no shard left but `k`. -/
def Journal.lastShard (j : Journal) (k : Nat × Nat) : Bool := j.ckptLeft.any fun l => decide (l.filter (fun x => decide (x ≠ k)) = [])

/-- A shard is done: a frame whose last shard it was has a complete checkpoint, and a shard that follows the last GAP
counts for GAP_FRAMES. -/
def Journal.shardDone (j : Journal) (k : Nat × Nat) : Journal :=
  let left := j.ckptLeft.map fun l => l.filter fun x => decide (x ≠ k)
  { j with
    ckptLeft := if j.lastShard k then none else left,
    sinceCkpt := if j.lastShard k then 0 else j.sinceCkpt,
    gapShards := j.gapShards.filter fun x => decide (x ≠ k) }

/-- A frame whose shards have all been checkpointed after its last GAP clears its bit (R462). -/
def State.clearGap (s : State) (f : Nat) : State :=
  if (s.frame f).journal.gapShards = [] ∧ inMask s.gapFrames f then
    { s with gapFrames := setBit s.gapFrames f false }
  else s

/-- The frame completes a checkpoint, and CKPT_LATE of it clears (R462). -/
def State.clearLate (s : State) (f : Nat) (complete : Bool) : State :=
  if complete then { s with ckptLate := setBit s.ckptLate f false } else s

/-- CHECKPOINT_SHARD: the kiln writes a shard of the checkpoint in progress to tier F from the live rows, and its CHECKPOINT
record into the journal. -/
def execCheckpointShard (frame table shard : Nat) (s : State) : Outcome :=
  within (frameOk frame)
    (s.when (s.movesRows && !(s.frame frame).kiln.absent) fun s =>
      let j := (s.frame frame).journal
      match s.tableAt frame table, s.bayFor frame with
      | some t, some k =>
        (match t.shard shard with
        | none => s
        | some sh =>
          let body : JournalBody := .checkpoint shard (j.nextJseq - 1)
          s.when (((j.ckptLeft.getD []).contains (table, shard) || j.gapShards.contains (table, shard)) &&
              decide (sh.frame = frame) && s.stageFits frame (journalLength body) && decide (j.lost = none)) fun s =>
            let rows := (List.range sh.localRows).map fun i => s.checkpointRow t sh i
            let bytes := rows.foldl (fun n r => n + rowBytes r) 0
            let ckpt : Checkpoint := ⟨frame, table, shard, j.nextJseq - 1, rows⟩
            let t := (s.changeBay k (((s.bay k).keep ckpt).wrote bytes)).copyToTwin frame (.checkpoint ckpt)
            let t := (t.journalAppend 0 frame table 0xFFFFFFFF false body).modFrame frame fun x =>
              { x with journal := x.journal.shardDone (table, shard) }
            (({ t with restored := t.restored ++ [(table, shard)] } : State).clearGap frame).clearLate frame (j.lastShard (table, shard)))
      | _, _ => s)

/-! ## Replay (R103, R107, R109) -/

/-- Records in JSEQ order, one of each. -/
def insertRec (r : JournalRec) : List JournalRec → List JournalRec
  | [] => [r]
  | q :: qs => if r.jseq < q.jseq then r :: q :: qs else if r.jseq = q.jseq then q :: qs else q :: insertRec r qs

/-- The bays of a mask whose saggars can be read. -/
def State.readBays (s : State) (mask : Nat) : List BayState :=
  let reads := fun (i : Nat) (b : BayState) =>
    bitAt mask i && decide (b.state = 3 ∨ b.state = 4 ∨ b.state = 5 ∨ b.state = 6)
  (if reads 0 s.bayA then [s.bayA] else []) ++ if reads 1 s.bayB then [s.bayB] else []

/-- Records of a frame that the bays of a mask hold. -/
def State.heldRecords (s : State) (f mask : Nat) : List JournalRec :=
  ((s.readBays mask).flatMap fun b => b.held.filter fun r => decide (r.frame = f)).foldl (fun l r => insertRec r l) []

/-- Records after the last one whose change the secondary had written: MSEQ up to `last` (R103). -/
def afterSeq (last : Nat) (rs : List JournalRec) : List JournalRec :=
  rs.foldl (fun acc r => if 0 < r.mseq ∧ r.mseq ≤ last then [] else acc ++ [r]) []

/-- Write a directory entry from its word. -/
def State.setEntryWord (s : State) (r : RowAt) (w : Word64) : State := s.writeDev r.entry (leBytes 8 w.toNat)

/-- The row that an extent held when a record was made: what the extent holds, or what it still holds since it was freed (R109). -/
def State.oldExtent (s : State) (ext : Nat) : Option RowImage :=
  match s.extentRow ext with
  | some img => some img
  | none => Sparse.find (s.bay (extentBay ext)).stale ext

/-- A relocation again (R92, R109): the row as it lies now, or as its extent holds it, is written into the new slot, its cold-index
operations are applied there, and the entry is switched; without a copy of the row nothing is switched. A row that went to tier F
needs no copy. An entry with CLASS 3 is never written (R483). -/
def State.replayMove (s : State) (f : Nat) (r : RowAt) (j : JournalRec) (old new : Word64) : State :=
  let a := DirEntry.ofNat old.toNat
  let b := DirEntry.ofNat new.toNat
  let img := if a.present then some (s.readRow (a.unit f) a.cls r.table.desc.blocks a.scale) else s.oldExtent a.slot
  if b.cls = 3 then s
  else if !b.present then
    (s.setEntryWord r new).journalAppend (s.seqOf f) f j.table j.row false (.relocate old new)
  else match img with
  | none => s
  | some img =>
    let t := (s.writeRow (b.unit f) (recode img (clsOf b.cls) (BitVec.ofNat 16 b.scale))).applyCold f r j.table j.row b
    (t.setEntryWord r new).journalAppend (s.seqOf f) f j.table j.row false (.relocate old new)

/-- Apply one record to the row that it names (R109): an operation as a carry unit does, a row image, a switch. The change is
journaled like any other. -/
def State.replayRow (s : State) (f : Nat) (r : RowAt) (j : JournalRec) : State :=
  match j.body with
  | .carry op =>
    let e := s.entryAt r
    if e.present ∧ !r.table.desc.badEntry e ∧ !s.entryBad r ∧ !s.spanBad (e.unit f) e.cls op ∧ !s.accBad f op .kiln then
      (s.applyOp r.table f e op .kiln).journalAppend (s.seqOf f) f j.table j.row false (.carry op)
    else s.recordCold f op .kiln
  | .rowWrite w img =>
    let e := DirEntry.ofNat w.toNat
    (s.writeRow (e.unit f) img).journalAppend (s.seqOf f) f j.table j.row false (.rowWrite w img)
  | .switch old new =>
    if (DirEntry.ofNat new.toNat).cls = 3 then s
    else (s.setEntryWord r new).journalAppend (s.seqOf f) f j.table j.row false (.switch old new)
  | .relocate old new => s.replayMove f r j old new
  | .checkpoint _ _ => s
  | .epochStart _ _ _ => s
  | .gap _ _ => s

/-- Replay of one frame: the shards stopped at a GAP until their next CHECKPOINT, records applied, state. -/
structure Replay where
  stopped : List (Nat × Nat)
  applied : Nat
  s : State

/-- One record of a replay. -/
def Replay.next (x : Replay) (f : Nat) (j : JournalRec) : Replay :=
  match j.body with
  | .gap _ _ => { x with stopped := (x.s.frame f).shardsOf f }
  | .checkpoint k _ => { x with stopped := x.stopped.filter fun q => decide (q ≠ (j.table, k)) }
  | .epochStart _ _ _ => x
  | _ =>
    match x.s.tableAt f j.table with
    | none => x
    | some t => match t.rowAt j.row with
      | none => x
      | some r =>
        if x.stopped.contains (j.table, (t.desc.shardOf j.row).1) then x
        else { x with applied := x.applied + 1, s := x.s.replayRow f r j }

/-! ## Record bytes (R105, R106) -/

/-- Bytes of a carry operation: its header and its deltas, zero-padded to a multiple of 32 B (R82). -/
def opBytes (op : CarryOp) : List Byte :=
  let size := if op.deltaFmt = 0 then 4 else if op.deltaFmt = 1 then 2 else 1
  let deltas := op.deltas.flatMap fun w => leBytes size w.toNat
  leBytes 1 op.opcode.toNat ++ leBytes 1 op.deltaFmt.toNat ++ leBytes 2 op.table.toNat ++ leBytes 4 op.row.toNat ++
    leBytes 2 op.firstBlock.toNat ++ leBytes 2 op.blockCount.toNat ++ leBytes 4 op.factor.toNat ++ leBytes 4 op.epsilon.toNat ++
    leBytes 4 op.reserved.toNat ++ leBytes 8 op.accAddr.toNat ++ padTo ((deltas.length + 31) / 32 * 32) deltas

/-- A row image as a delivery record: row scale and class in the side record, glaze bytes, blocks (R60, R93). -/
def rowImageBytes (row : Nat) (img : RowImage) : List Byte :=
  leBytes 4 (img.scale.toNat + clsNum img.cls * 2 ^ 16) ++ leBytes 4 row ++ padTo (glazePad img.glaze.length) img.glaze ++ img.blocks

/-- TYPE of a record (R106). -/
def journalType : JournalBody → Nat
  | .carry op => if op.opcode = 2 then 2 else 1
  | .rowWrite _ _ => 3
  | .switch _ _ => 4
  | .relocate _ _ => 5
  | .checkpoint _ _ => 6
  | .epochStart _ _ _ => 7
  | .gap _ _ => 8

/-- The body of a record (R106). -/
def recordBody (r : JournalRec) : List Byte :=
  match r.body with
  | .carry op => opBytes op
  | .rowWrite e img => leBytes 8 e.toNat ++ leBytes 8 0 ++ rowImageBytes r.row img
  | .switch a b => leBytes 8 a.toNat ++ leBytes 8 b.toNat
  | .relocate a b => leBytes 8 a.toNat ++ leBytes 8 b.toNat
  | .checkpoint k j => leBytes 2 k ++ leBytes 6 0 ++ leBytes 8 j
  | .epochStart m e ls => leBytes 2 m ++ leBytes 2 e ++ leBytes 4 0 ++ (List.range 20).flatMap fun f => leBytes 8 (ls.getD f 0)
  | .gap a b => leBytes 8 a ++ leBytes 8 b

/-- The header of a record with a CRC (R105). -/
def recordHeader (r : JournalRec) (crc : Nat) : List Byte :=
  leBytes 2 (journalType r.body) ++ leBytes 2 (journalLength r.body) ++ leBytes 1 r.frame ++ leBytes 1 (bit r.cold) ++ leBytes 2 r.table ++
    leBytes 8 r.jseq ++ leBytes 8 r.mseq ++ leBytes 4 r.row ++ leBytes 4 crc

/-- A journal record as bytes: header, body and the padding to 16 B, with its CRC over all three (R105, R106). -/
def journalBytes (r : JournalRec) : List Byte :=
  let body := padTo (journalLength r.body - 32) (recordBody r)
  recordHeader r (crc32 (recordHeader r 0 ++ body)) ++ body

/-! ## Restoring -/

/-- Restore a shard's rows and directory from a checkpoint (R109); an entry with CLASS 3 is not written (R483; log 104). -/
def State.restoreShard (s : State) (t : Table) (sh : ShardEntry) (c : Checkpoint) : State :=
  s.forEach (List.zip (List.range c.rows.length) c.rows) fun s p =>
    match pinPlace t.pages (sh.directory + 8 * p.1) with
    | none => s
    | some q =>
      let e := DirEntry.ofNat p.2.1.toNat
      let t := match p.2.2 with
        | some img => s.writeRow (e.unit sh.frame) img
        | none => s
      if e.cls = 3 then s else t.writeDev q (leBytes 8 p.2.1.toNat)

/-- The checkpoints of a frame's shards that a restart without a twin restores: not yet live since the last module-scope
reset (R109). -/
def State.dueCheckpoints (s : State) (f mask : Nat) : List Checkpoint :=
  if s.twin.paired then []
  else (((s.readBays mask).flatMap fun b => b.ckpts).filter fun c =>
    decide (c.frame = f) && !s.restored.contains (c.table, c.shard))

/-- Restore a frame's shards, and note them. -/
def State.restoreFrame (s : State) (f : Nat) (cs : List Checkpoint) : State :=
  s.forEach cs fun s c =>
    match s.tableAt f c.table with
    | none => s
    | some t => match t.shard c.shard with
      | none => s
      | some sh => { (s.restoreShard t sh c) with restored := s.restored ++ [(c.table, c.shard)] }

/-- The shard that a record belongs to: a CHECKPOINT's own, else that of its row (R106). -/
def State.recordShard (s : State) (f : Nat) (r : JournalRec) : Option Nat :=
  match r.body with
  | .checkpoint k _ => some k
  | _ => (s.tableAt f r.table).map fun t => (t.desc.shardOf r.row).1

/-- Replay a frame: restored shards from the record after their checkpoint's JSEQ, other shards from the record after the last
SEQ that the EPOCH_START record names. -/
def Replay.frame (x : Replay) (f mask last : Nat) : Replay :=
  let cs := x.s.dueCheckpoints f mask
  let s := x.s.restoreFrame f cs
  let all := s.heldRecords f mask
  let late := afterSeq last all
  let due := all.filter fun r =>
    match cs.find? fun c => decide (c.table = r.table ∧ s.recordShard f r = some c.shard) with
    | some c => decide (c.jseq < r.jseq)
    | none => late.contains r
  due.foldl (fun y r => y.next f r) { x with stopped := [], s := s }

/-- An EPOCH_START record at a place: TYPE 7, with the last SEQ of each frame; none where it cannot be read or is none (R105,
R106). -/
def State.epochStartAt (s : State) (n va : Nat) : Option (List Nat) :=
  match s.pinnedRange n va 208 with
  | none => none
  | some pins =>
    let bs := s.pinBytes pins va 208
    if (s.pinBad pins va 208).isSome ∨ fieldAt bs 0 2 ≠ 7 ∨ fieldAt bs 2 2 ≠ 208 ∨
        crc32 (bs.take 0x1C ++ leBytes 4 0 ++ bs.drop 0x20) ≠ fieldAt bs 0x1C 4 then none
    else some ((List.range 20).map fun f => fieldAt bs (40 + 8 * f) 8)

/-- JOURNAL_REPLAY (R103, R107, R109): the records of the bays named are applied, and counted. The secondary refuses it (R96);
a record that cannot be read is refused (log 34). -/
def execJournalReplay (c : Nat) (s : State) : Outcome :=
  within true (s.when s.up fun s => s.onReady c 0x31 fun s x =>
    if s.twin.role ≠ 1 then s.refuse c 0x16
    else match s.epochStartAt x.port x.op0.toNat with
    | none => s.refuse c 0xF0
    | some lasts =>
      let r := (List.range 20).foldl (fun (y : Replay) f => y.frame f (x.op1.toNat % 4) (lasts.getD f 0)) ⟨[], 0, s⟩
      r.s.completeOk c (BitVec.ofNat 64 r.applied))

end Sys2Proof.Machine
end

