-- ==== Sys2Proof/Machine/RowCommands.lean ====
section
/-! DEFINITION. CARRY_SUBMIT, ROW_WRITE, ROW_SWITCH, and the operand reads that they make (R81, R89, R93 to R96, R481, R484). -/

namespace Sys2Proof.Machine

/-! ## Operand reads (R481) -/

/-- The rod whose channel 3 makes a command's reads: position 0 of group 0 of the port frame (log 35). -/
def State.commandRod (s : State) (n : Nat) : RodId := ⟨s.portFrame n, 0, 0⟩

/-- A command's reads as an access: the port frame's walker and the partition's tables. -/
def State.commandAccess (s : State) (n : Nat) : Access := ⟨s.portFrame n, n, [], true⟩

/-- How an operand read ends. -/
inductive ReadEnd where
  | got (bs host : List Byte)
  | fault (kind va : Nat)
  | poison (frame : Nat)
  | lost
  | failed
  | wait
deriving DecidableEq, Repr

/-- Pieces of an operand read as bytes; those of other modules come from the command's buffer, at their offset from the first
operand byte. -/
def State.operandBytes (s : State) (x : Cmd) (base : Nat) : List (Reach × Nat × Nat) → List Byte → List Byte × List Byte
  | [], host => ([], host)
  | q :: qs, host =>
    let r := if isRemote q then (x.buf.bytes (q.2.1 - base) q.2.2, host) else s.readPiece q host
    let t := s.operandBytes x base qs r.2
    (r.1 ++ t.1, t.2)

/-- Read `n` bytes of a command's operands at `va`; `base` is where its operands start. -/
def State.operandRead (s : State) (x : Cmd) (base va n : Nat) (host : List Byte) : ReadEnd :=
  let ps := s.reaches (s.commandAccess x.port) (.device va) n false
  match badPiece ps with
  | some q => .fault q.1 q.2
  | none =>
    if !(s.sharedOf x.port ps).all (fun p => (s.port x.port).answered.contains p) then .wait
    else match s.poisonOf ps [] with
    | some f => .poison f
    | none =>
      if ps.any isRemote ∧ x.remoteBad then .failed
      else if ps.any isHost ∧ !s.hostReachable x.port then .lost
      else let r := s.operandBytes x base ps host; .got r.1 r.2

/-- Charge an operand read: mover and host DMA units of the partition on the port frame (R351, R352). -/
def State.chargeRead (s : State) (n len host : Nat) : Option State :=
  match s.chargePart n (s.portFrame n) 5 ((len + 63) / 64) with
  | none => none
  | some t => if host = 0 then some t else t.chargePart n (s.portFrame n) 6 ((host + 63) / 64)

/-- The pieces of a command's operands that lie in windows of other modules and have not been asked for. -/
def State.unasked (s : State) (x : Cmd) (base n : Nat) : List (Reach × Nat × Nat) :=
  (s.reaches (s.commandAccess x.port) (.device base) n false).filter fun q => isRemote q && !x.asked.contains (q.2.1 / 65536)

/-- Reads of pages in windows of other modules go out once for each page; the command goes on when every one is answered (R378,
R481). -/
def State.askRemote (s : State) (x : Cmd) (base n : Nat) : State :=
  let ps := s.unasked x base n
  let t := s.modCmd x.id fun y => { y with asked := y.asked ++ ps.map fun q => q.2.1 / 65536 }
  t.forEach ps fun t q =>
    match q.1 with
    | .remote m w off =>
      t.forEach (txnParts off q.2.2) fun t p =>
        t.request (s.commandRod x.port) 0 x.port q.2.1 2 m w (off + p.1) p.2 []
          (some ⟨.nothing, .command x.id (q.2.1 - base + p.1), p.2, none⟩)
    | _ => t

/-- Answers that a command's reads still wait for. -/
def State.cmdAwaits (s : State) (c : Nat) : Bool :=
  s.fabric.outstanding.any fun o => match o.into with
    | some k => (match k.dst with
      | .command i _ => decide (i = c)
      | _ => false)
    | none => false

/-- A command's read faults: the fault is raised with the command as its waiter, and the command waits (R481). -/
def State.faultCmd (s : State) (x : Cmd) (kind va : Nat) : State :=
  (s.modCmd x.id fun y => { y with phase := .faultWait }).raiseFault x.port
    ⟨kind, 1, pageKey va, BitVec.ofNat 64 va, (s.commandRod x.port).toRef, 0, 0, .command x.id⟩

/-- Use up the answers for the shared pages of an operand read, and the free values it took. -/
def State.afterRead (s : State) (x : Cmd) (va n : Nat) : State :=
  let ps := s.reaches (s.commandAccess x.port) (.device va) n false
  let t := (s.useAnswers x.port (s.sharedOf x.port ps)).fillCopy (s.commandAccess x.port) ⟨.device va, .nothing, n, none⟩
  if ps.any isHost then { t with free := t.free + n } else t

/-- Host bytes of an operand read. -/
def State.readHost (s : State) (x : Cmd) (va n : Nat) : Nat :=
  hostLength (s.reaches (s.commandAccess x.port) (.device va) n false)

/-! ## CARRY_SUBMIT -/

/-- Bytes per delta of a format code. -/
def deltaSize (c : Nat) : Nat := if c = 0 then 4 else if c = 1 then 2 else 1

/-- A carry operation as its bytes spell it (R82). -/
def parseOp (bs : List Byte) : CarryOp where
  opcode := BitVec.ofNat 8 (fieldAt bs 0 1)
  deltaFmt := BitVec.ofNat 8 (fieldAt bs 1 1)
  table := BitVec.ofNat 16 (fieldAt bs 2 2)
  row := BitVec.ofNat 32 (fieldAt bs 4 4)
  firstBlock := BitVec.ofNat 16 (fieldAt bs 8 2)
  blockCount := BitVec.ofNat 16 (fieldAt bs 0xA 2)
  factor := BitVec.ofNat 32 (fieldAt bs 0xC 4)
  epsilon := BitVec.ofNat 32 (fieldAt bs 0x10 4)
  reserved := BitVec.ofNat 32 (fieldAt bs 0x14 4)
  accAddr := BitVec.ofNat 64 (fieldAt bs 0x18 8)
  deltas := (List.range (fieldAt bs 0xA 2 * 32)).map fun i =>
    let n := deltaSize (fieldAt bs 1 1)
    BitVec.ofNat 32 (fieldAt bs (32 + i * n) n)

/-- Length of the operation that a header starts, `left` bytes before the list's end: a reserved DELTA_FMT gives no length, so
the operation is the rest of the list; so is one that passes the end (log 36). -/
def listedLength (header : List Byte) (left : Nat) : Nat :=
  if 3 < fieldAt header 1 1 then left
  else min left (32 + (fieldAt header 0xA 2 * 32 * deltaSize (fieldAt header 1 1) + 31) / 32 * 32)

/-- The operation of `bs`, or one that R83 discards where the bytes end before it does. -/
def listedOp (bs : List Byte) : CarryOp :=
  let op := parseOp bs
  match opLength bs with
  | some n => if n = bs.length then op else { op with deltas := [] }
  | none => { op with opcode := 0 }

/-- The list is read, or cannot be read further: what is outstanding decides the completion (R89, R481). -/
def State.listEnd (s : State) (c : Nat) (g : Cmd → Cmd) : State :=
  (s.modCmd c fun x => { (g x) with phase := .busy }).carryDone c

/-- Read and dispatch operations one after another; each is dispatched once it is read whole. -/
def State.submitOps (s : State) (c : Nat) : Nat → List Byte → State
  | 0, _ => s.listEnd c id
  | fuel + 1, host =>
    match s.cmd c with
    | none => s
    | some x =>
      let base := x.op0.toNat
      let left := x.op1.toNat - x.done
      if left = 0 then s.listEnd c id
      else
        let va := base + x.done
        match s.operandRead x base va (min 32 left) host with
        | .wait => s
        | .fault k a => s.faultCmd x k a
        | .poison f => (s.countPoison f).listEnd c fun x => { x with faulted := true }
        | .failed => s.listEnd c fun x => { x with faulted := true }
        | .lost => s.listEnd c fun x => { x with lostRead := true }
        | .got head _ =>
          let n := listedLength head left
          match s.operandRead x base va n host with
          | .wait => s
          | .fault k a => s.faultCmd x k a
          | .poison f => (s.countPoison f).listEnd c fun x => { x with faulted := true }
          | .failed => s.listEnd c fun x => { x with faulted := true }
          | .lost => s.listEnd c fun x => { x with lostRead := true }
          | .got bs host' =>
            let t := (s.afterRead x va n).modCmd c fun x => { x with done := x.done + n, outstanding := x.outstanding + 1 }
            match t.chargeRead x.port n (s.readHost x va n) with
            | none => s.holdTally x.port (s.portFrame x.port) 5
            | some u =>
              match u.dispatch (s.portFrame x.port) (listedOp bs) (.command c) with
              | some t => t.submitOps c fuel host'
              | none => s.waitCharge (.command c) (s.opFrame (s.portFrame x.port) (listedOp bs) (.command c)) 8

/-- CARRY_SUBMIT: reads its list, dispatches every operation, and completes when they have been applied. -/
def execCarrySubmit (c : Nat) (hostData : List Byte) (s : State) : Outcome :=
  within true (s.when s.up fun s => s.onReady c 0x08 fun s x =>
    if s.unasked x x.op0.toNat x.op1.toNat ≠ [] then s.askRemote x x.op0.toNat x.op1.toNat
    else s.when (!s.cmdAwaits c) fun s => s.submitOps c (x.op1.toNat / 32 + 1) hostData)

/-! ## ROW_WRITE (R93, R484) -/

/-- The table and the row of OP0. -/
def Cmd.rowKey (x : Cmd) : RowKey := ⟨bits x.op0.toNat 15 0, bits x.op0.toNat 63 32⟩

/-- The row that a command names: its table is registered and belongs to the partition, and ROW is below ROWS. -/
def State.ownRow (s : State) (x : Cmd) : Option RowAt :=
  match s.anyTable x.rowKey.table with
  | none => none
  | some t => if t.owner = x.port then t.rowAt x.rowKey.row else none

/-- The slot's reservation moves to it from any other that the row holds (R484). -/
def State.reserveSlot (s : State) (u : SlotUse) : State :=
  { s with slotsReserved := (s.slotsReserved.filter fun v => decide (v.key ≠ u.key)) ++ [u] }

/-- A row image from a delivery record of `blocks` blocks (R60). -/
def imageOf (bs : List Byte) (blocks : Nat) : RowImage :=
  let side := fieldAt bs 0 8
  let cls := bits side 17 16
  ⟨clsOf cls, BitVec.ofNat 16 (bits side 15 0), (bs.drop 8).take blocks,
    (bs.drop (8 + glazePad blocks)).take (blocks * blockBytes cls)⟩

/-- The DETAIL with which R484 refuses a ROW_WRITE whose image starts with a side record, if any. -/
def State.rowWriteDetail (s : State) (x : Cmd) (r : RowAt) (side : Nat) : Option Nat :=
  let tier := Tier.ofNum (bits x.op0.toNat 16 16)
  let cls := bits side 17 16
  let slot := bits x.op1.toNat 31 0
  let f := r.shard.frame
  let n := rowBursts cls r.table.desc.blocks
  -- a slot that spans two page frames is no slot (R80): DETAIL 0x1C (log 100)
  if bits side 31 25 ≠ 0 ∨ cls = 3 ∨ !r.table.desc.permits tier cls ∨ tier.bytes < (slot + n) * 64 then some 0x1B
  else if !inOneFrame slot n ∨ !s.slotMirrored ⟨f, tier, slot⟩ n ∨ s.slotNamed f tier slot n none ∨ s.slotHeld f tier slot n (some x.rowKey) then
    some 0x1C
  else none

/-- Write a row image into the slot, journal it, reserve the slot; the command completes once its bursts are streamed (R93). -/
def State.finishRowWrite (s : State) (x : Cmd) (r : RowAt) (bs : List Byte) : State :=
  let tier := Tier.ofNum (bits x.op0.toNat 16 16)
  let slot := bits x.op1.toNat 31 0
  let f := r.shard.frame
  let img := imageOf bs r.table.desc.blocks
  let e : DirEntry := ⟨true, tier, clsNum img.cls, slot, img.scale.toNat⟩
  let t := (s.writeRow ⟨f, tier, slot⟩ img).journalAppend (s.seqOf f) f x.rowKey.table x.rowKey.row false
    (.rowWrite (BitVec.ofNat 64 e.toNat) img)
  ((t.reserveSlot ⟨x.rowKey, f, tier, slot, rowBursts e.cls r.table.desc.blocks, [], none⟩).modCmd x.id fun y =>
    { y with phase := .busy, result := 0, copied := rowUnits ⟨f, tier, slot⟩ e.cls r.table.desc.blocks }).finishRow x.id

/-- An operand read that did not give its bytes (R481). -/
def State.readFailed (s : State) (x : Cmd) : ReadEnd → State
  | .wait => s
  | .fault k a => s.faultCmd x k a
  | .poison f => (s.countPoison f).completeFaulted x.id
  | .failed => s.completeFaulted x.id
  | .lost => (s.modCmd x.id fun y => { y with lostRead := true }).completeOk x.id 0
  | .got _ _ => s

/-- ROW_WRITE with its operand row known. -/
def State.rowWrite (s : State) (x : Cmd) (r : RowAt) (host : List Byte) : State :=
  let va := x.op2.toNat
  match s.operandRead x va va 8 host with
  | .got head _ =>
    let side := fieldAt head 0 8
    (match s.rowWriteDetail x r side with
    | some d => s.refuse x.id d
    | none =>
      let n := 8 + glazePad r.table.desc.blocks + r.table.desc.blocks * blockBytes (bits side 17 16)
      match s.operandRead x va va n host with
      | .got bs _ =>
        (match s.chargeRead x.port n (s.readHost x va n) with
        | none => s.holdTally x.port (s.portFrame x.port) 5
        | some t => (t.afterRead x va n).finishRowWrite x r bs)
      | e => s.readFailed x e)
  | e => s.readFailed x e

/-- Longest row image: 4,096 elements of 16 bits. -/
def imageBytes (d : TableDesc) : Nat := 8 + glazePad d.blocks + d.blocks * 64

/-- ROW_WRITE. -/
def execRowWrite (c : Nat) (hostData : List Byte) (s : State) : Outcome :=
  within true (s.when s.up fun s => s.onReady c 0x09 fun s x =>
    if s.twin.role = 2 ∨ s.twin.role = 3 then s.refuse c 0x16
    else match s.ownRow x with
    | none => s.refuse c 0x1B
    | some r =>
      if (s.frame r.shard.frame).fenced then s
      else if s.unasked x x.op2.toNat (imageBytes r.table.desc) ≠ [] then
        s.askRemote x x.op2.toNat (imageBytes r.table.desc)
      else s.when (!s.cmdAwaits c) fun s => s.rowWrite x r hostData)

/-! ## ROW_SWITCH (R93 to R95, R484) -/

/-- A new entry that R484 allows: no reserved bit, a class that ALLOWED permits, and, with PRESENT 1, a slot that a completed
ROW_WRITE holds reserved for the row. -/
def State.newEntryOk (s : State) (x : Cmd) (r : RowAt) (w : Nat) : Bool :=
  let e := DirEntry.ofNat w
  decide (bits w 7 4 = 0 ∧ bits w 63 56 = 0) && r.table.desc.permits e.tier e.cls &&
    (!e.present || s.slotsReserved.any fun u =>
      decide (u.key = x.rowKey ∧ u.frame = r.shard.frame ∧ u.tier = e.tier ∧ u.slot = e.slot ∧
        rowBursts e.cls r.table.desc.blocks ≤ u.bursts))

/-- Refuse a ROW_SWITCH; RESULT is the current entry whatever the code (R308; log 37). -/
def State.refuseSwitch (s : State) (c detail : Nat) (entry : Nat) : State := s.complete c 1 detail (BitVec.ofNat 64 entry)

/-- The switch itself: the entry as one 8 B write, the journal, the old slot, the operations that wait; the row's cold-index
operations stay in the index: DESIGN CHOICE (log 103). It completes once the steps running now have ended and the twin has written
the entry (R93; log 101). -/
def State.switchRow (s : State) (x : Cmd) (r : RowAt) (old : Nat) : State :=
  let f := r.shard.frame
  let key := x.rowKey
  let e := DirEntry.ofNat x.op2.toNat
  let t := (s.writeDev r.entry (leBytes 8 x.op2.toNat)).journalAppend (s.seqOf f) f key.table key.row false
    (.switch (BitVec.ofNat 64 old) x.op2)
  let t := t.oldSlot f key r (DirEntry.ofNat old)
  let t := if e.present then t.followRow f key.table key.row e else t.coolRow f key.table key.row
  let t := if e.present then { t with slotsReserved := t.slotsReserved.filter fun u => decide (u.key ≠ key) } else t
  (t.modCmd x.id fun y => { y with
    phase := .busy, steps0 := s.runningSteps, copied := [r.entry.burst], result := BitVec.ofNat 64 old }).finishRow x.id

/-- ROW_SWITCH: while the entry's burst is poisoned or restoring it waits (R484). -/
def execRowSwitch (c : Nat) (s : State) : Outcome :=
  within true (s.when s.up fun s => s.onReady c 0x0A fun s x =>
    match s.ownRow x with
    | none => s.refuse c (if s.twin.role = 2 ∨ s.twin.role = 3 then 0x16 else 0x1B)
    | some r =>
      let cur := s.devNat r.entry 8
      let bad := s.entryBad r
      if s.twin.role = 2 ∨ s.twin.role = 3 then s.refuseSwitch c 0x16 (if bad then 0 else cur)
      else if !s.newEntryOk x r x.op2.toNat then s.refuseSwitch c 0x1B (if bad then 0 else cur)
      else if bad ∨ (s.frame r.shard.frame).fenced ∨ (s.frame r.shard.frame).kiln.absent then s
      else if BitVec.ofNat 64 cur ≠ x.op1 then s.refuseSwitch c 0x12 cur
      else s.switchRow x r cur)

end Sys2Proof.Machine
end

