-- ==== Sys2Proof/Machine/Pair.lean ====
section
/-! DEFINITION. The pair: messages to the twin, roles and epochs, the end of a planned handover, what a lost twin or a lost stream
leaves (R96 to R103, R263, R264, R381 to R385). -/

namespace Sys2Proof.Machine

/-! ## Messages (R381) -/

/-- HELLO on a frame: module ID, role, epoch, epoch of the last EPOCH_START, MIRROR_STATE of the frame. -/
def State.sayHello (s : State) (f : Nat) : State :=
  s.tell f 0x01 [s.fabric.moduleId.toNat, s.twin.role, s.twin.epoch.toNat, s.twin.journalEpoch.toNat, s.twin.mirrorOf f]

/-- A change of role, which HELLO announces on every frame. -/
def State.setRole (s : State) (r : Nat) : State :=
  if s.twin.role = r then s
  else ({ s with twin := { s.twin with role := r } } : State).forEach (List.range 20) State.sayHello

/-! ## Streams -/

/-- A stream at the start of an epoch: SEQ counts from 0 again (R98). -/
def Stream.restart (x : Stream) : Stream :=
  { x with nextSeq := 0, unacked := [], resent := [], written := 0, digests := [], swept := [] }

/-- Every stream starts anew: nothing of the epoch before waits to be acknowledged. -/
def State.restartStreams (s : State) : State :=
  (s.forEach (List.range 20) fun t f => t.modFrame f fun x => { x with stream := x.stream.restart }).mapKnown fun _ => Known.none

/-- The records of a frame that are not acknowledged have become dirty regions: a set that waits on them waits on those instead
(R99, R264). -/
def Known.fall (k : Known) (f next : Nat) (lost : List StreamRec) : Known :=
  let mine := k.seqs.filter fun p => decide (p.1 = f)
  let regions := (lost.filter fun r => mine.any fun p => decide (r.seq < p.2)).map fun r =>
    ((⟨f, r.tier, r.burst / 1024⟩ : Unit64), next)
  ⟨k.seqs.filter fun p => decide (p.1 ≠ f), (k.regions ++ regions).eraseDups⟩

/-- What waits on the records of a frame waits on their regions from now on. -/
def State.fallToRegions (s : State) (f : Nat) : State :=
  let st := (s.frame f).stream
  s.mapKnown fun k => k.fall f st.nextSeq st.unacked

/-- The 64 KiB regions of a frame's mirrored ranges. -/
def Frame.mirrorRegions (x : Frame) (f : Nat) : List Unit64 :=
  (x.mirrored.flatMap fun m => (List.range m.count).map fun i => (⟨f, m.tier, m.start + i⟩ : Unit64)).eraseDups

/-- Every mirrored range is marked dirty: the twin joins (R100). -/
def State.dirtyAll (s : State) : State :=
  s.forEach (List.range 20) fun t f =>
    let t := (t.fallToRegions f).modFrame f fun x => { x with stream := { x.stream with
      dirty := x.mirrorRegions f, unacked := [], resent := [] } }
    if (t.frame f).streamUp then t.setMirror f (if (t.frame f).stream.dirty = [] then 0 else 1) else t

/-- A frame on lanes that are up is CLEAN while fewer than 65,536 of its records are unacknowledged and no region is (R99). -/
def State.settleMirror (s : State) (f : Nat) : State :=
  let x := s.frame f
  if x.streamUp ∧ x.stream.unacked.length < 65536 ∧ x.stream.dirty = [] ∧ x.stream.resent = [] ∧ s.twin.role = 1 then s.setMirror f 0 else s

/-- The twin lanes of a frame go down: it is DOWN, and what was not acknowledged is dirty (R99, R101). -/
def State.streamDown (s : State) (f : Nat) : State :=
  let st := (s.frame f).stream
  let regions := (st.unacked.map fun r => (⟨f, r.tier, r.burst / 1024⟩ : Unit64)) ++ st.resent.map fun r => r.1
  (((s.fallToRegions f).modFrame f fun x => { x with
    streamUp := false,
    stream := { x.stream with dirty := (st.dirty ++ regions).eraseDups, unacked := [], resent := [] } }).setMirror f 2).finishRows

/-- Send the held pair events that may go, in order: those whose records and regions are acknowledged, on lanes of the target's
frame that are up. -/
def State.releaseEvents (s : State) : State :=
  s.forEach (List.range 20) fun t f =>
    let free := (t.frame f).stream.events.filter fun e => (t.frame f).streamUp && (decide (t.twin.role ≠ 1) || t.acknowledged e.known)
    let t' := if free = [] then t else t.modFrame f fun x => { x with stream := { x.stream with
      events := x.stream.events.filter fun e => !free.contains e } }
    t'.forEach free State.sendEvent

/-- The twin lanes of a frame are up: DIRTY while regions wait, else CLEAN; HELLO is sent, and pair events may go (R99, R264,
R381). -/
def State.streamStart (s : State) (f : Nat) : State :=
  let t := s.modFrame f fun x => { x with streamUp := true }
  ((t.setMirror f (if (t.frame f).stream.dirty = [] then 0 else 1)).sayHello f).releaseEvents

/-! ## Becoming primary (R101 to R103, R382) -/

/-- Forwarded operations that no acknowledgement came for are lost (R103). -/
def State.loseFwds (s : State) : State :=
  let t : State := { s with twin := { s.twin with
    fwds := [], fwdLost := sat32 (s.twin.fwdLost + s.twin.fwds.length) } }
  t.forEach s.twin.fwds fun t w => t.settleOp w.2.1 w.2.2.2 false

/-- A far twin takes over, and the old primary takes no role: what was forwarded and not acknowledged is applied here (R102, R385;
log 58). -/
def State.landFwds (s : State) : State :=
  let t : State := { s with twin := { s.twin with fwds := [] } }
  t.forEach s.twin.fwds fun t w =>
    let u := match t.dispatch w.2.1 w.2.2.1 .kiln with
      | some u => u
      | none => t.recordCold w.2.1 w.2.2.1 .kiln
    u.settleOp w.2.1 w.2.2.2 true

/-- A new epoch: its number, the journal's EPOCH_START record, streams from SEQ 0 (R98, R103, R106; log 52). For a frame on
which nothing was written the record shows SEQ 0, as after SEQ 0 (log 105). -/
def State.newEpoch (s : State) : State :=
  let epoch := s.twin.epoch + 1
  let lasts := (List.range 20).map fun f => (s.frame f).stream.written - 1
  let t : State := { s with twin := { s.twin with epoch := epoch, journalEpoch := epoch } }
  (t.journalAppend 0 0 0xFFFF 0xFFFFFFFF false (.epochStart s.fabric.moduleId.toNat epoch.toNat lasts)).restartStreams

/-- The secondary becomes primary: after silence with MIRROR_STATE DOWN and pair events gone, after a handover with nothing
lost; the old primary forwards back what it has not applied (R102; log 58). -/
def State.becomePrimary (s : State) : State :=
  let lost := s.twin.silence
  let t := (s.setRole 1).newEpoch
  if lost then
    ((t.loseFwds).forEach (List.range 20) fun t f =>
      (t.modFrame f fun x => { x with stream := { x.stream with events := [] } }).setMirror f 2)
  else if t.twin.far then t.landFwds
  else t.retryOps

/-! ## Handover (R102, R384, R385) -/

/-- A planned handover starts: every frame stops taking carry operations at its next quiescent point. -/
def State.startTwinHandover (s : State) (c : Option Nat) : State :=
  ({ s with twin := { s.twin with handover := some c } } : State).requestAction (BitVec.ofNat 20 (2 ^ 20 - 1)) .handoverStop

/-- Streams and carry units of the old primary are drained. -/
def State.drained (s : State) : Bool :=
  (List.range 20).all fun f =>
    let x := s.frame f
    x.fenced || (decide (x.stream.unacked = [] ∧ x.stream.dirty = [] ∧ x.stream.resent = []) &&
      x.carry.all fun u => decide (u.2 = []))

/-- After a far twin's handover the operations that it forwarded stay with it (log 58). -/
def State.dropForwarded (s : State) : State :=
  { s with heldOps := s.heldOps.filter fun o => match o.src with
      | .forwarded _ => false
      | .step _ _ | .window _ _ | .command _ | .kiln => true }

/-- The cold index of the old primary goes to the new one as forwarded operations, in its order (R102; log 58). -/
def State.forwardCold (s : State) : State :=
  s.forEach (List.range 20) fun t f =>
    let ops := (t.frame f).cold
    let t := if ops = [] then t else t.modFrame f fun x => { x with cold := [] }
    t.forEach ops fun t c => t.forwardOp f c.op .kiln

/-- The old primary sends HANDOVER with the last SEQ of each frame, and the roles are exchanged; after a far twin's handover
the old primary takes no role (R102, R385). -/
def State.handoverStep (s : State) : State :=
  match s.twin.handover with
  | none => s
  | some c =>
    if !s.carryStopped ∨ !s.drained then s
    else
      let t := s.forEach (List.range 20) fun t f => t.tell f 0x0A [(t.frame f).stream.nextSeq - 1]
      let t : State := { t with twin := { t.twin with handover := none } }
      let t := ((t.restartStreams).setRole (if t.twin.far then 0 else 2)).forwardCold
      let t := if t.twin.far then t.dropForwarded else t.retryOps
      match c with
      | some c => t.completeOk c 0
      | none => t

/-- Band 2 on the primary starts a handover once its twin is secondary and has no frame at band 2 (R384). -/
def State.tryBand2 (s : State) : State :=
  let hot := (List.range 20).any fun f => !(s.frame f).fenced && decide (2 ≤ (s.frame f).mem.band)
  s.when (hot && s.twin.band2 && s.twin.paired &&
      decide (s.twin.peerHot = 0 ∧ s.twin.role = 1 ∧ s.twin.peerRole = 2 ∧ s.twin.handover = none)) fun s => s.startTwinHandover none

end Sys2Proof.Machine
end

