-- ==== Sys2Proof/Machine/Quiescent.lean ====
section
/-! DEFINITION. Frame quiescent points, fences and kilns that restart: FRAME_QUIESCENT, FENCE_AND_RESET, KILN_WATCHDOG, KILN_RETURN,
and the activation of firmware (R9, R20, R39 to R44, R335 to R339, R357, R392, R394, R397, R404 to R407, R426). -/

namespace Sys2Proof.Machine

/-! ## Restarting a kiln (R404 to R407) -/

/-- A kiln becomes absent: FW_STATUS shows ABSENT and LAST_ERR at once (log 54), and PLACE_f keeps its FREE_RODS (R448). -/
def Kiln.away (k : Kiln) (err rods : Nat) : Kiln :=
  { k with absent := true, rods := rods, shown := { k.shown with absent := true, lastErr := err } }

/-- A kiln activates its VALID non-running slot: TRIAL, preferred, and the kiln restarts (R404, R407). -/
def State.activateKiln (s : State) (f : Nat) : State :=
  s.modKiln f fun k =>
    let b := !k.runningB
    let r := ({ (k.setSlot b { (k.slot b) with state := 2 }) with preferB := b } : Kiln).rom s.fwRules 0 0
    r.1.away r.2 (s.freeRods f)

/-- FW_ACTIVATE goes on: the next kiln restarts; the kiln master hands its role over first, where a successor is there; with
no kiln left the command is done (R407). -/
def State.activateNext (s : State) : List Nat → State
  | [] => ({ s with activating := [], smbus := { s.smbus with result := 0 } } : State)
  | f :: rest =>
    if (s.frame f).fenced then s.activateNext rest
    else
      let t : State := { s with activating := f :: rest }
      if t.hasMaster ∧ t.master.frame = f ∧ !t.master.moving then
        let u := t.startHandover
        if u.hasMaster then u else u.activateKiln f
      else t.activateKiln f

/-- The role has moved: an old master that waited for it restarts, and an SMBus command that waited runs. -/
def State.moveMaster (s : State) : State :=
  let old := s.master.frame
  let t := s.finishHandover.masterFree
  t.when (decide (t.activating.head? = some old) && !(t.frame old).kiln.absent && !(t.hasMaster && decide (t.master.frame = old)))
    fun t => t.activateKiln old

/-- A kiln's firmware runs again (R404, R405); the module takes it as kiln master if it has none (log 55). -/
def State.kilnBack (s : State) (f : Nat) : State :=
  let t := s.modKiln f fun k => Kiln.show { k with absent := false } k.shown.lastErr
  let t := t.when (t.master.none && (t.framePort f).isSome && (t.frame f).kiln.verified) fun t =>
    (t.takeMaster f).alert 1
  let t := t.when (t.hasMaster && decide (t.master.frame = f)) State.writeRecords
  t.when (decide (t.activating.head? = some f)) fun t => t.activateNext (t.activating.drop 1)

/-- KILN_RETURN. -/
def execKilnReturn (frame : Nat) (s : State) : Outcome :=
  within (frameOk frame) (s.when (s.up && !(s.frame frame).fenced && (s.frame frame).kiln.absent) fun s => s.kilnBack frame)

/-! ## Re-checks (R44) -/

/-- A firing that fails its re-check is withdrawn, which makes banks that passed STALE (R413), at a quiescent point of its
frames (R43); one without beads has no such point and goes once no frame has its withdrawal pending and its step has ended (log
89). -/
def State.failCheck (s : State) (f : Firing) : State :=
  let t := (((s.modFiring f.handle fun f => { f with withdrawing := true }).cancelAhead f.handle fun _ => true).staleBanks none).requestAction
    f.img.beadFrames (.withdraw f.handle)
  if t.actionLeft (.withdraw f.handle) ∨ (f.img.beadFrames = 0 ∧ f.step.isSome) then t else t.removeFiring f.handle

/-- Re-check the firings with beads on a frame, and those without beads. -/
def State.recheckFrame (s : State) (k : Nat) : State :=
  s.forEach (s.firings.filter fun f => inMask f.img.beadFrames k || decide (f.img.beadFrames = 0)) fun t f =>
    if t.recheckOk f then t else t.failCheck f

/-- A firing that waits to enter is re-checked as an admitted one: a band may have changed since its checks (R37). -/
def State.recheckEntering (s : State) (k : Nat) : State :=
  s.forEach (s.frame k).actions fun t a => match a with
    | .entry h => (match t.firing h with
      | some f => if t.recheckOk f then t else t.failCheck f
      | none => t)
    | _ => t

/-- Ask for the re-check at the next quiescent point of every frame with a firing (R44). -/
def State.askRecheck (s : State) : State := s.forEach s.firings fun t f => t.requestAction f.img.ownFrames .recheck

/-! ## What a quiescent point does, action by action (R41) -/

/-- A firing enters on a frame: its rods there are zeroed and reloaded; it runs once it has entered on all its frames
(R37, R114). -/
def State.enterFrame (s : State) (h k : Nat) : State :=
  match s.firing h with
  | none => s
  | some f =>
    let t := s.forEach (f.img.rods.filter fun r => decide (r.frame = k)) fun t r => t.enterRod f r
    if t.actionLeft (.entry h) then t else t.modFiring h fun f => { f with status := .running }

/-- Action `a` has been met at frame `k`, or no longer waits for it: what it does there, and what it does once no frame is left. -/
def State.perform (s : State) (k : Nat) (a : FrameAction) : State :=
  match a with
  | .substitute =>
    let r := s.substituteFrame k
    if r.2 then ((r.1.askRecheck).staleBanks none).recheckFrame k else r.1
  | .calibration => s.takeTable k
  | .recheck => s.recheckFrame k
  | .withdraw h => if s.actionLeft a then s else s.removeFiring h
  | .commit n => if n = 4 then s.commitModule k else s.commitFrame n k
  | .masterMove => if s.actionLeft a then s else s.moveMaster
  | .handoverStop => s.handoverStep
  | .promoteTwin => if s.actionLeft a then s else s.becomePrimary
  | .preempt h => if s.actionLeft a then s else s.applyPreempt h
  | .entry h => s.enterFrame h k

/-- The place of an action in the order of R41. -/
def FrameAction.rank : FrameAction → Nat
  | .substitute => 0
  | .calibration => 1
  | .recheck => 2
  | .withdraw _ => 3
  | .commit _ => 4
  | .masterMove => 5
  | .handoverStop => 6
  | .promoteTwin => 7
  | .preempt _ => 8
  | .entry _ => 9

/-- Take the actions of a rank off a frame and perform them. -/
def State.performRank (s : State) (k n : Nat) : State :=
  let mine := (s.frame k).actions.filter fun a => decide (a.rank = n)
  (s.modFrame k fun x => { x with actions := x.actions.filter fun a => decide (a.rank ≠ n) }).forEach mine fun t a =>
    t.perform k a

/-- PLACE_f.SHARD_GIB: the bytes of resident rows of table shards on the frame that its partition may read (R357). -/
def State.shardGibOf (s : State) (k : Nat) : Nat :=
  match s.frameOwner k with
  | none => 0
  | some n =>
    let tables := ((s.frame k).tables.map fun t => t.2).filter fun t =>
      decide (t.owner = n) || inMask (s.part n).readFrom t.owner
    let row := fun (t : Table) (sh : ShardEntry) (i : Nat) => match pinPlace t.pages (sh.directory + 8 * i) with
      | none => 0
      | some p =>
        let e := DirEntry.ofNat (s.devNat p 8)
        if e.present ∧ e.cls < 3 then rowBursts e.cls t.desc.blocks * 64 else 0
    let bytes := tables.foldl (fun n t => (t.shards.filter fun sh => decide (sh.frame = k)).foldl (fun n sh =>
      (List.range sh.localRows).foldl (fun n i => n + row t sh i) n) n) 0
    bytes / 2 ^ 30

/-- Every step with beads running on a frame has ended. -/
def State.quiet (s : State) (k : Nat) : Bool := s.firings.all fun f => f.step.isNone || !inMask f.img.beadFrames k

/-- The pending actions of a frame in the order of R41; afterwards every running firing owes a step before the next hold, once it
has waiting commands (R40), and a FIRING_RESUME that waits tries again (R356); all of them do once a COMMIT is complete (log 88). -/
def State.quiescent (s : State) (k : Nat) : State :=
  let t := ((s.performRank k 0).performRank k 1).recheckEntering k
  let t := t.forEach [2, 3, 4, 5, 6, 7, 8] fun t n => t.performRank k n
  let t := if s.committing && !t.committing then t.forEach (List.range 20) State.retryResumes else t.retryResumes k
  let t := t.performRank k 9
  t.modFrame k fun x => { x with
    owed := (t.firings.filter fun f => decide (f.status = .running) && inMask f.img.beadFrames k).map fun f => f.handle,
    shardGib := t.shardGibOf k }

/-- FRAME_QUIESCENT: the frame is at its quiescent point, and its kiln acts. -/
def execFrameQuiescent (frame : Nat) (s : State) : Outcome :=
  within (frameOk frame) (s.when (s.kilnActs frame && s.frameHeld frame && s.quiet frame) fun s => (s.quiescent frame).masterFree)

/-! ## Fences (R9, R20, R43, R335 to R339, R392, R426) -/

/-- Records sent to a bay and not acknowledged are to be sent again (R437). -/
def State.takeBackRecords (s : State) (k : Bay) : State :=
  s.forEach (s.bay k).sent fun t r => t.modFrame r.frame fun x =>
    let i := (x.journal.ring.findIdx? fun q => decide (q = r)).getD x.journal.sent
    { x with journal := { x.journal with sent := min x.journal.sent i } }

/-- A bay's cartridge is gone, or its interface is down: ABSENT; the cartridge keeps its contents (R9, R435, R437; log 56). -/
def State.bayGone (s : State) (k : Bay) : State :=
  let b := s.bay k
  if b.state = 0 ∧ b.cart = none then s
  else
    let t := s.takeBackRecords k
    ({ t with lives := if b.cart.isSome then putLife t.lives b.serial b.written else t.lives } : State).changeBay k ({ b with saved := b.written } : BayState).kept

/-- Every command of a partition in flight is lost, with its shadow ring, and leaves no record (R339; log 59). -/
def State.loseCommands (s : State) (n : Nat) : State :=
  let mine := s.cmds.filter fun c => decide (c.port = n)
  let t := s.forEach mine fun t c => match c.phase with
    | .inSlot k => (match t.firing c.handle with
      | some f => if f.step.isSome then t.modFiring f.handle fun f => { f with leaving := f.leaving ++ [(k, c.blocks)] }
          else t.freeBlocks n c.blocks
      | none => t.freeBlocks n c.blocks)
    | _ => t
  let t := ({ t with cmds := t.cmds.filter fun c => decide (c.port ≠ n) } : State).keepWaiters n fun w => match w with
    | .command _ => false
    | .channel _ _ => true
  t.modPort n fun p => { p with
    rings := p.rings.map fun r => (r.1, { r.2 with inflight := 0, held := [], chains := [], fetched := [] }),
    unacked := [], shadowHead := p.shadowTail, shadowUnread := 0 }

/-- Frame `k` holds the shadow ring of partition `n`. -/
def State.holdsShadow (s : State) (n k : Nat) : Bool :=
  let va := (s.part n).live.shadowBase.toNat * 65536
  decide (va ≠ 0) && match s.pinnedPage n va with
    | some g => decide (g.place.frame = k)
    | none => false

/-- A fenced frame with its engines and kiln state gone; memory, map-outs, the rod map, the journal and greenware stay
(R392; log 60). -/
def Frame.dropped (x : Frame) : Frame :=
  { x with
    fenced := true, gather := [], promo := [], advice := [], carry := [], links := [], tally := TallyCtr.reset, actions := [],
    owed := [], tlb := [],
    groups := x.groups.map fun g => (g.1, { g.2 with missed := [], testing := [] }) }

/-- Beads, rods, scratch and pools of a frame are gone. -/
def State.dropRods (s : State) (k : Nat) : State :=
  { s with
    beads := s.beads.filter fun b => decide (b.1 / 15000 ≠ k),
    rods := s.rods.filter fun r => decide (r.1 / 1875 ≠ k),
    mem := { s.mem with
      scratch := s.mem.scratch.filter fun p => decide (p.1 / 16384 / 15000 ≠ k),
      pool := s.mem.pool.filter fun p => decide (p.1 / 65536 / 1875 ≠ k) } }

/-- Firings that name a fenced frame: a running step is abandoned (R426), a pending swap to an image that names it is refused
(log 60), and the re-check withdraws them (R44). -/
def State.fenceFirings (s : State) (k : Nat) : State :=
  let t := s.forEach s.firings fun t f =>
    let t := t.when (f.img.names k && f.step.isSome) fun t => t.abandonStep f.handle
    match f.swap with
    | some q => if q.2.1.names k then (t.modFiring f.handle fun f => { f with swap := none }).refuse q.1 0x03 else t
    | none => t
  t.forEach (t.firings.filter fun f => f.img.names k) State.failCheck

/-- FENCE of frame `k`, of whose port `acked` writes had been acknowledged: the master's role goes first (R20, R394). -/
def State.fence (s : State) (k acked : Nat) : State :=
  if (s.frame k).fenced then s
  else
    let actions := (s.frame k).actions
    let jobs := (s.frame k).carry.flatMap fun u => u.2
    let shadows := (List.range 4).filter fun n => s.holdsShadow n k
    let t := s.when (s.hasMaster && decide (s.master.frame = k)) State.startHandover
    let t := (t.streamDown k).modFrame k Frame.dropped
    let t := (t.showAbsent k true).dropRods k
    let t := t.forEach shadows State.loseCommands
    let t := t.forEach jobs fun t j => t.discardOp k j.src
    let t := t.fenceFirings k
    let t := match t.framePort k with
      | some p => t.portDown p acked
      | none => t
    let t := t.forEach [Bay.a, Bay.b] fun t b => t.when (decide (t.bayFrame b = k)) fun t => t.bayGone b
    let t := t.forEach (List.range 4) fun t n =>
      t.modPart n fun p => { p with bank := { p.bank with left := p.bank.left.filter (· ≠ k) } }
    let t : State := { t with mb := { t.mb with left := t.mb.left.filter (· ≠ k) } }
    let t := t.forEach (actions.filter fun a => decide (3 ≤ a.rank)) fun t a => t.perform k a
    ((t.askRecheck).staleBanks none).retarget.masterFree

/-- The frame returns through boot steps 4 to 9; where one fails it stays fenced (R397). -/
def State.unfence (s : State) (k : Nat) (boot : BootFrame) : State :=
  let t := s.bootFrame k boot
  let t := t.modFrame k fun x => { x with actions := [], owed := [] }
  let t := t.when (t.master.none && !(t.frame k).fenced && (t.framePort k).isSome) fun t =>
    (t.takeMaster k).alert 1
  t.when (decide (t.activating.head? = some k)) fun t => t.activateNext (t.activating.drop 1)

/-- A single-frame fence-and-reset, counted (R391, R392). -/
def State.fenceAndReset (s : State) (k acked : Nat) (boot : BootFrame) : State :=
  let t : State := { s with ka := { s.ka with
    frame := true, countFrame := inc32 s.ka.countFrame, fenceFrames := setBit s.ka.fenceFrames k true } }
  (t.fence k acked).unfence k boot

/-- FENCE_AND_RESET: the kiln master fences a frame and brings it back; within a module-scope reset it is absorbed (R394). -/
def execFenceAndReset (frame acked : Nat) (boot : BootFrame) (s : State) : Outcome :=
  within (frameOk frame) (s.when (s.up && s.hasMaster) fun s => s.fenceAndReset frame acked boot)

/-! ## KILN_WATCHDOG (R391, R394, R404, R405) -/

/-- The kiln's boot ROM starts again: a TRIAL slot that had not confirmed is REJECTED; with no slot left the frame is fenced. -/
def State.watchdogKiln (s : State) (f acked : Nat) (boot : BootFrame) : State :=
  let t := s.modKiln f fun k =>
    let x := k.slot k.runningB
    let k := if x.state = 2 then k.setSlot k.runningB { x with state := 3 } else k
    let r := k.rom s.fwRules boot.slotA boot.slotB
    r.1.away r.2 (s.freeRods f)
  let t := t.when (t.hasMaster && decide (t.master.frame = f)) State.startHandover
  if (t.frame f).kiln.verified then t else t.fence f acked

/-- KILN_WATCHDOG: the third expiry within 10 s has the frame fenced and reset. -/
def execKilnWatchdog (frame : Nat) (third : Bool) (acked : Nat) (boot : BootFrame) (s : State) : Outcome :=
  within (frameOk frame) (s.when (s.kilnActs frame) fun s =>
    let t : State := { s with ka := { s.ka with kilnWdt := true, wdtFrames := setBit s.ka.wdtFrames frame true } }
    if third then t.fenceAndReset frame acked boot else t.watchdogKiln frame acked boot)

end Sys2Proof.Machine
end

