-- ==== Sys2Proof/Machine/Timeouts.lean ====
section
/-! DEFINITION. COMMAND_TIMEOUT and TWIN_HANDOVER, the last of the commands from the rings (R102, R225, R306, R338, R383). -/

namespace Sys2Proof.Machine

/-! ## What a command does when it expires (R306) -/

/-- Opcodes whose commands hold engines of their own. -/
def holdsEngines (op : Nat) : Bool := decide (op = 0x08 ∨ op = 0x09 ∨ op = 0x10 ∨ op = 0x1A ∨ op = 0x20 ∨ op = 0x31)

/-- Opcodes of single kiln actions. -/
def kilnAction (op : Nat) : Bool :=
  decide ((0x01 ≤ op ∧ op ≤ 0x06 ∧ op ≠ 0x02) ∨ op = 0x0A ∨ op = 0x12 ∨ op = 0x18 ∨ op = 0x19 ∨ op = 0x28 ∨ op = 0x29 ∨
    op = 0x30)

/-- A command that waits is removed: nothing of it remains, its run-ahead included (R79, R225). -/
def State.expireWaiting (s : State) (x : Cmd) : State :=
  let t := if x.d.opcode = 0x02 then s.cancelAhead x.handle fun c => decide (c = x.id) else s
  t.timedOut x.id 1

/-- A request that serves a killed slot, or, once every command of the step has timed out, any request of the step. -/
def MvReq.killed (q : MvReq) (st : Step) (slot : Nat) : Bool :=
  st.allKilled || match q.kind with
    | .copy (c :: _) => decide (c.slot = some slot)
    | _ => false

/-- Channel 3 of a rod whose stalled transfer serves a command that timed out is no waiter any more: its request goes on with what
it moves for other slots (R280, R306). -/
def State.freeKilled (s : State) (f : Firing) (st : Step) (slot : Nat) (r : RodId) : State :=
  match (s.chan r 3).reqs with
  | [] => s
  | q :: _ =>
    s.when (decide (q.handle = f.handle) && q.killed st slot && (s.chan r 3).stalled) fun s =>
      let t := s.keepWaiters f.part fun w => decide (w ≠ .channel r f.handle)
      (t.setChan r 3 { (t.chan r 3) with stalled := false }).probe r

/-- A context in a WAIT at pair scope ends (R264). -/
def Ctx.endPairWait (x : Ctx) : Ctx :=
  match x.waiting with
  | some w => if w.scope = 4 then { x with waiting := none, ended := true } else x
  | none => x

/-- Once every command of a step has timed out, the contexts that wait for an event of the twin end (R264, R383; log 85). -/
def State.endPairWaits (s : State) (f : Firing) (st : Step) : State :=
  s.when st.allKilled fun s => s.forEach f.img.beads fun t b => t.modBead b fun x =>
    (List.range 8).foldl (fun x c => x.setCtx c (x.ctx c).endPairWait) x

/-- A command in a batch slot: its slot's remaining mover entries move nothing; a sequence's blocks leave at the boundary. -/
def State.expireSlot (s : State) (x : Cmd) (slot : Nat) : State :=
  match s.firing x.handle with
  | none => s.timedOut x.id 2
  | some f =>
    let t := match f.step with
      | some st =>
        let st := { st with killed := st.killed ++ [slot] }
        let t := s.modFiring f.handle fun f : Firing => { f with
          leaving := if f.img.seq then f.leaving ++ [(slot, x.blocks)] else f.leaving, step := some st }
        (t.forEach f.img.rods fun t r => t.freeKilled f st slot r).endPairWaits f st
      | none =>
        if f.status = FiringStatus.preempted then s.freeBlocks f.part x.blocks
        else s.modFiring f.handle fun f => { f with leaving := f.leaving ++ [(slot, x.blocks)] }
    t.timedOut x.id 2

/-- Reads that a command sent to other modules no longer find it. -/
def State.dropReads (s : State) (c : Nat) : State :=
  ({ s with fabric := { s.fabric with outstanding := s.fabric.outstanding.filter fun o => match o.into with
      | some m => (match m.dst with
        | .command k _ => decide (k ≠ c)
        | _ => true)
      | none => true } } : State).settleTlb

/-- A command that holds engines drains: what it has started finishes. -/
def State.expireEngines (s : State) (x : Cmd) : State :=
  let t := ((s.dropCmdWaiter x.port x.id).dropReads x.id).stopPrefetch x
  if x.d.opcode = 0x08 ∧ x.outstanding ≠ 0 then t.modCmd x.id fun y => { y with phase := .draining }
  else t.timedOut x.id 3

/-- Another command of the firing waits for the same kiln action. -/
def State.otherAction (s : State) (x : Cmd) (f : Firing) : Bool := (s.kilnCmds f x.d.opcode).any fun c => decide (c.id ≠ x.id)

/-- A kiln action that has not been applied is removed; one that has been stands, and ends with its own code. -/
def State.expireAction (s : State) (x : Cmd) : State :=
  let gone := fun t : State => t.timedOut x.id 4
  if x.phase = .ready then gone s
  else match x.d.opcode with
  | 0x03 => gone ((s.modFiring x.handle fun f => { f with swap := none }).retarget)
  | 0x04 => (match s.firing x.handle with
    | some f => if s.otherAction x f || !s.recheckOk f then gone s
        else gone ((s.dropAction fun a => decide (a = .withdraw f.handle)).modFiring f.handle fun f =>
          { f with withdrawing := false })
    | none => gone s)
  | 0x05 => (match s.firing x.handle with
    | some f => if s.otherAction x f then gone s else gone (s.dropAction fun a => decide (a = .preempt f.handle))
    | none => gone s)
  | 0x06 => if x.result = 0 then gone s else s
  | 0x29 =>
    if x.applied ≠ 0 then s
    else gone ((s.dropAction fun a => decide (a = .commit x.port)).modPart x.port fun p => { p with
      bank := { p.bank with state := 3, left := [], cid := none, twin := false } })
  | 0x30 => gone ({ (s.dropAction fun a => decide (a = .handoverStop)) with twin := { s.twin with handover := none } } : State)
  | _ => s

/-- A command expires, by where it stands. -/
def State.expire (s : State) (x : Cmd) : State :=
  match x.phase with
  | .fence | .params | .waiting | .pendingSeq => s.expireWaiting x
  | .inSlot k => s.expireSlot x k
  | .ready =>
    if kilnAction x.d.opcode then s.expireAction x
    else if holdsEngines x.d.opcode ∧ (x.done ≠ 0 ∨ x.asked ≠ []) then s.expireEngines x
    else s.expireWaiting x
  | .faultWait => s.expireEngines x
  | .busy => if kilnAction x.d.opcode then s.expireAction x else s.expireEngines x
  | .draining => s

/-- COMMAND_TIMEOUT. -/
def execCommandTimeout (c : Nat) (s : State) : Outcome :=
  within true (s.when s.up fun s =>
    match s.cmd c with
    | some x => if s.cplHeld x then s else (s.expire x).masterFree
    | none => s)

/-! ## TWIN_HANDOVER (R102, R383) -/

/-- Whether the twin state allows a handover now: a paired primary whose twin is secondary, every frame up or fenced. -/
def State.mayHandOver (s : State) : Bool :=
  s.twin.paired && decide (s.twin.role = 1 ∧ s.twin.peerRole = 2 ∧ s.twin.handover = none) &&
    (List.range 20).all fun f => (s.frame f).fenced || decide (s.twin.mirrorOf f ≠ 2)

/-- TWIN_HANDOVER: refused where the twin state does not allow it; otherwise it completes when the roles are exchanged. -/
def execTwinHandover (c : Nat) (s : State) : Outcome :=
  within true (s.when (s.up && s.hasMaster) fun s => s.onReady c 0x30 fun s _ =>
    if s.mayHandOver then (s.modCmd c fun x => { x with phase := .busy }).startTwinHandover (some c)
    else s.refuse c 0x19)

end Sys2Proof.Machine
end

