-- ==== Sys2Proof/Machine/Tiers.lean ====
section
/-! DEFINITION. Memory tiers: temperature bands, scrubbing, map-outs, restoration: HBM_TEMP_SAMPLE, BAND_ACTION, SCRUB, MAP_OUT,
PAGE_RESTORE, MAPOUT, AT_RISK (R47, R49, R236 to R246, R384, R458). -/

namespace Sys2Proof.Machine

/-! ## Temperature bands (R236 to R238) -/

/-- Highest band whose entry temperature a sample has reached. -/
def bandUp (t : Int) : Nat := if 105 ≤ t then 3 else if 95 ≤ t then 2 else if 85 ≤ t then 1 else 0

/-- Descent from a band through every band whose exit temperature the sample is at or below. -/
def bandDown (t : Int) : Nat → Nat
  | 0 => 0
  | b + 1 => if t ≤ (if b = 0 then 82 else 92) then bandDown t b else b + 1

/-- The band after a sample. -/
def nextBand (band : Nat) (t : Int) : Nat := if band ≤ bandUp t then bandUp t else bandDown t band

/-- SCHEDULE_AT_RISK (R47): every FIRING_RUN in flight has met band 2 on the frame, and vector 1 goes to the ports of the firings
that name it. -/
def State.raiseRisk (s : State) (f : Nat) : State :=
  let named := s.firings.filter fun x => x.img.names f
  ({ s with cmds := s.cmds.map fun c => if c.d.opcode = 0x02 then { c with hot := setBit c.hot f true } else c } : State).forEach
    ((List.range 4).filter fun n => named.any fun x => decide (x.part = n)) State.vector1

/-- A stack enters a band: SCHEDULE_AT_RISK and AT_RISK at band 2, AT_RISK on leaving it, and perhaps a handover (R47, R384). -/
def State.enterBand (s : State) (f b : Nat) : State :=
  let old := (s.frame f).mem.band
  let t := s.modFrame f fun x => { x with mem := { x.mem with band := b } }
  let t := t.when (decide (old < 2 ∧ 2 ≤ b)) fun t => t.raiseRisk f
  let t := t.when (decide (old ≠ b ∧ (old = 2 ∨ b = 2))) fun t => t.tell f 0x09 [b]
  t.tryBand2

/-- HBM_TEMP_SAMPLE: a stack's report in °C, or none where it cannot be read; band 3 is a thermal trip. -/
def execHbmTempSample (frame : Nat) (temp : Option Int) (s : State) : Outcome :=
  within (frameOk frame) (s.when (s.up && !(s.frame frame).fenced) fun s =>
    let m := (s.frame frame).mem
    match temp with
    | none =>
      let t := s.modFrame frame fun x => { x with mem := { x.mem with
        missed := x.mem.missed + 1, lost := decide (3 ≤ x.mem.missed + 1) } }
      if 3 ≤ m.missed + 1 then t.enterBand frame 2 else t
    | some v =>
      let t := s.modFrame frame fun x => { x with mem := { x.mem with missed := 0, lost := false } }
      if nextBand m.band v = 3 then t.trip else t.enterBand frame (nextBand m.band v))

/-- BAND_ACTION (R237): the controller action of the stack's band is in force. -/
def execBandAction (frame : Nat) (s : State) : Outcome :=
  within (frameOk frame) (s.when (s.up && !(s.frame frame).fenced) fun s =>
    s.modFrame frame fun x => { x with mem := { x.mem with action := x.mem.band } })

/-- AT_RISK from the twin (R384): the band of its frame's stack. -/
def execAtRisk (frame : Nat) (band : BitVec 2) (s : State) : Outcome :=
  within (frameOk frame) (s.when (s.up && s.twin.paired) fun s =>
    let hot := setBit s.twin.peerHot frame (decide (2 ≤ band.toNat))
    let t : State := { s with twin := { s.twin with peerHot := hot } }
    (t.when (decide (s.twin.peerHot = 0 ∧ hot ≠ 0)) State.vector1All).tryBand2)

/-! ## Errors (R240, R241, R243) -/

/-- SCRUB: the scrubber reads a burst, charged to the scrub tally; one that is bad already it leaves. -/
def execScrub (frame : Nat) (tier : Tier) (burst : Nat) (found : BurstCheck) (s : State) : Outcome :=
  within (frameOk frame && decide (burst * 64 + 64 ≤ tier.bytes))
    (s.when (s.up && !(s.frame frame).fenced) fun s =>
      match s.chargeScrub frame 1 with
      | none => s
      | some t => if t.badBurst ⟨frame, tier, burst⟩ then t else t.checkBurst ⟨frame, tier, burst⟩ found)

/-! ## Relocation of page frames (R246; log 61) -/

/-- Page frames of a tier of a frame that retire, and where those in use go. -/
structure Retire where
  frame : Nat
  tier : Tier
  retired : List Nat
  moves : List (Nat × Nat)

/-- What becomes of a page frame: nothing, gone, or moved. -/
def Retire.page (r : Retire) (p : Nat) : Option (Option Nat) :=
  if r.retired.contains p then some ((r.moves.find? fun m => decide (m.1 = p)).map fun m => m.2) else none

/-- What becomes of a leaf word of pages of `size` bytes: it follows its page frame, or its page is unbacked. A large page with a
retired page frame cannot follow one page frame of many, so it is unbacked whole (R271; log 61). -/
def Retire.leaf (r : Retire) (e size : Nat) : Option Nat :=
  if bits e 6 4 = r.tier.num ∧ bits e 11 7 = r.frame then
    if size = 65536 then
      match r.page (bits e 63 16) with
      | none => none
      | some (some t) => some (bits e 15 0 + t * 65536)
      | some none => some (bits e 2 0 + 3 * 16)
    else if r.retired.any fun p => decide (bits e 63 16 ≤ p ∧ p < bits e 63 16 + size / 65536) then some (bits e 2 0 + 3 * 16)
    else none
  else none

/-- Where a byte offset of tier H goes. -/
def Retire.offset (r : Retire) (frame off : Nat) : Option Nat :=
  if r.tier = .h ∧ frame = r.frame then
    match r.page (off / 65536) with
    | some (some t) => some (t * 65536 + off % 65536)
    | _ => none
  else none

/-- The table that a non-leaf entry names, after the move, with the entry's new word. -/
def Retire.pointer (r : Retire) (e : Nat) : Option Nat :=
  (r.offset (bits e 7 3) (bits e 63 8 * 256)).map fun off => bits e 7 0 + off

/-- Leaves and pointers of a tree follow moved page frames. -/
def State.moveTree (s : State) (r : Retire) : List (Nat × Nat) → Nat → Nat → State
  | [], _, _ => s
  | (shift, nbits) :: rest, frame, off =>
    s.forEach (List.range (2 ^ nbits)) fun t i =>
      let p : Place := ⟨frame, .h, off + i * 8⟩
      let e := t.devNat p 8
      if e % 2 = 0 ∨ t.badBurst p.burst then t
      else if bitAt e 1 then t.withSome (r.leaf e (2 ^ shift)) fun t w => t.writeDev p (leBytes 8 w)
      else
        let w := (r.pointer e).getD e
        (if w = e then t else t.writeDev p (leBytes 8 w)).moveTree r rest (bits w 7 3) (bits w 63 8 * 256)

/-- PT_ROOT, live and staged, follows its page. -/
def BankRegs.moveRoot (b : BankRegs) (r : Retire) : BankRegs :=
  match r.offset b.ptFrame.toNat (b.ptOffset.toNat * 65536) with
  | some off => { b with ptOffset := BitVec.ofNat 48 (off / 65536) }
  | none => b

/-- A page of a pin table follows its page frame. -/
def Retire.pin (r : Retire) (g : PinPage) : PinPage :=
  if g.place.frame = r.frame ∧ g.place.tier = r.tier then
    match r.page (g.place.off / 65536) with
    | some (some t) => { g with place := { g.place with off := t * 65536 + g.place.off % 65536 } }
    | _ => g
  else g

/-- Pin tables of firings, windows and tables follow. -/
def State.movePins (s : State) (r : Retire) : State :=
  let t : State := { s with
    firings := s.firings.map fun f : Firing => { f with
      pins := f.pins.map r.pin, swap := f.swap.map fun q => (q.1, q.2.1, q.2.2.map r.pin) },
    fabric := { s.fabric with winPins := s.fabric.winPins.map fun w => (w.1, w.2.map r.pin) } }
  t.forEach (List.range 20) fun t k => t.modFrame k fun x => { x with
    tables := x.tables.map fun q => (q.1, { q.2 with pages := q.2.pages.map r.pin }),
    tlb := x.tlb.filter fun e =>
      let l := Leaf.ofWord e.2.2.toNat
      !(decide (l.loc = r.tier.num ∧ l.frame = r.frame) && r.retired.contains (l.base / 65536)) }

/-- What becomes of a slot of `n` bursts: nothing, gone, or moved whole. -/
def Retire.slot (r : Retire) (slot n : Nat) : Option (Option Nat) :=
  let first := slot / 1024
  let pages := (List.range ((slot + n - 1) / 1024 + 1 - first)).map fun i => first + i
  if pages.all fun p => (r.page p).isNone then none
  else
    let new := pages.map fun p => (r.page p).getD (some p)
    match new.head? with
    | some (some b) =>
      if new = (List.range new.length).map fun i => some (b + i) then some (some (b * 1024 + slot % 1024)) else some none
    | _ => some none

/-- A row is marked non-resident; the extent that its entry then names is not stated. -/
def State.coolEntry (s : State) (f table row : Nat) (q : RowAt) : State :=
  let e := s.entryAt q
  (({ s with free := s.free + 1 } : State).writeEntry q
    { e with present := false, slot := Config.freeExtent s.free % 3750000000 }).coolRow f table row

/-- The resident row of an entry follows its slot, with its waiting operations; an entry with CLASS 3 is never written (R483). -/
def State.moveRow (s : State) (r : Retire) (table row : Nat) (q : RowAt) : State :=
  let e := s.entryAt q
  if !e.present ∨ e.tier ≠ r.tier ∨ e.cls = 3 then s
  else match r.slot e.slot (rowBursts e.cls q.table.desc.blocks) with
  | none => s
  | some (some k) =>
    let e' : DirEntry := { e with slot := k }
    (s.writeEntry q e').followRow r.frame table row e'
  | some none => s.coolEntry r.frame table row q

/-- Every row of the shards of a frame whose entry can be read. -/
def State.eachRow (s : State) (f : Nat) (g : State → Nat → Nat → RowAt → State) : State :=
  s.forEach (s.frame f).tables fun t tb => t.forEach (List.range tb.2.desc.rows) fun t row =>
    match t.rowAt f tb.1 row with
    | some q => if q.shard.frame = f ∧ !t.entryBad q then g t tb.1 row q else t
    | none => t

/-- Slots that are reserved or not yet reusable follow, or are given up. -/
def State.moveSlots (s : State) (r : Retire) : State :=
  let go := fun l : List SlotUse => l.filterMap fun u =>
    if u.frame = r.frame ∧ u.tier = r.tier then
      match r.slot u.slot u.bursts with
      | none => some u
      | some (some k) => some { u with slot := k }
      | some none => none
    else some u
  { s with slotsReserved := go s.slotsReserved, slotsOld := go s.slotsOld }

/-- Everything that names a page frame of the list follows it. -/
def State.relocatePages (s : State) (r : Retire) : State :=
  let t := s.movePins r
  let t := t.forEach (List.range 4) fun t n => t.when (t.partExists n) fun t =>
    let t := t.modPart n fun p => { p with live := p.live.moveRoot r, staged := p.staged.moveRoot r }
    t.moveTree r [(39, 13), (30, 9), (21, 9), (16, 5)] (t.part n).live.ptFrame.toNat ((t.part n).live.ptOffset.toNat * 65536)
  (t.eachRow r.frame fun t table row q => t.moveRow r table row q).moveSlots r

/-- Targets are free page frames of the tier, one for each source, and no page goes twice. -/
def State.targetsOk (s : State) (r : Retire) : Bool :=
  let from' := r.moves.map fun m => m.1
  let to' := r.moves.map fun m => m.2
  decide (from'.eraseDups.length = from'.length ∧ to'.eraseDups.length = to'.length) &&
    from'.all (fun p => r.retired.contains p) && to'.all fun p =>
      !r.retired.contains p && !s.mem.retired.contains ⟨r.frame, r.tier, p⟩ && decide (p * 65536 + 65536 ≤ r.tier.bytes) &&
        !s.pageInUse r.frame r.tier p

/-- A large page of some tree covers a page frame. -/
def State.inLargePage (s : State) (f : Nat) (t : Tier) (p : Nat) : Bool :=
  (List.range 4).any fun n => s.partExists n &&
    s.someLeaf n (fun e size => decide (size ≠ 65536 ∧ bits e 6 4 = t.num ∧ bits e 11 7 = f ∧ bits e 63 16 ≤ p ∧
      p < bits e 63 16 + size / 65536)) [(39, 13), (30, 9), (21, 9), (16, 5)] (s.part n).live.ptFrame.toNat
        ((s.part n).live.ptOffset.toNat * 65536)

/-- The choice of R246: every retired page frame in use goes to a free page frame, while there is one. -/
def State.movesOk (s : State) (r : Retire) : Bool :=
  let left := r.retired.filter fun p => s.pageInUse r.frame r.tier p && !s.inLargePage r.frame r.tier p &&
    !r.moves.any fun m => decide (m.1 = p)
  let free := fun p => !r.retired.contains p && !s.mem.retired.contains ⟨r.frame, r.tier, p⟩ &&
    !(r.moves.any fun m => decide (m.2 = p)) && !s.pageInUse r.frame r.tier p
  s.targetsOk r && (decide (left = []) || (lastBelow free (r.tier.bytes / 65536)).isNone)

/-- The page frames of a list are out of use. -/
def State.retirePages (s : State) (r : Retire) : State :=
  let gone := fun u : Unit64 => decide (u.frame = r.frame ∧ u.tier = r.tier) && r.retired.contains u.num
  { s with mem := { s.mem with
      retired := s.mem.retired ++ r.retired.map fun p => ⟨r.frame, r.tier, p⟩,
      lost := s.mem.lost.filter fun u => !gone u,
      restoring := s.mem.restoring.filter fun u => !gone u,
      poisoned := s.mem.poisoned.filter fun u => !gone u.pageFrame } }

/-! ## MAP_OUT (R244 to R246) -/

/-- The tier of a resource. -/
def unitTier : MemUnit → Tier
  | .channel _ => .h
  | .package _ => .l

/-- A page frame's contents are lost: restoring where the twin has them, otherwise poisoned (R245). -/
def State.losePage (s : State) (g : Unit64) (back : Bool) : State :=
  let m := { s.mem with
    lost := s.mem.lost.filter (· ≠ g), restoring := s.mem.restoring.filter (· ≠ g),
    poisoned := s.mem.poisoned.filter fun u => decide (u.pageFrame ≠ g) }
  { s with mem := if back then { m with restoring := m.restoring ++ [g] } else { m with lost := m.lost ++ [g] } }

/-- The twin can restore a frame's pages. -/
def State.twinRestores (s : State) (f : Nat) : Bool := s.twin.paired && (s.frame f).streamUp

/-- MEMMAP_STATE: IDLE once nothing is left to choose or to restore; with the choice made, RESTORING while a page frame restores
(R458; log 61). -/
def State.settleMap (s : State) (f : Nat) (chosen : Bool) : State :=
  s.modFrame f fun x =>
    let left := s.restoringLeft f
    { x with mem := { x.mem with mapState :=
        if x.mem.choosing = [] ∧ left = 0 then 0 else if chosen ∧ left ≠ 0 then 2 else x.mem.mapState } }

/-- The rows of a frame on lost page frames are marked non-resident: no twin restores them (R246). -/
def State.coolLost (s : State) (f : Nat) (tier : Tier) : State :=
  s.eachRow f fun t table row q =>
    let e := t.entryAt q
    if e.present ∧ e.tier = tier ∧ e.cls ≠ 3 ∧ (rowUnits (e.unit f) e.cls q.table.desc.blocks).any (fun u =>
        t.mem.lost.contains u.pageFrame || t.mem.retired.contains u.pageFrame) then t.coolEntry f table row q
    else t

/-- The channels of a resource (R228, R230). -/
def unitChannels : MemUnit → List Nat
  | .channel c => [c]
  | .package p => (List.range 4).map fun i => 4 * p + i

/-- Uncorrectable errors call for the map-out of a resource: 16 distinct bursts of a channel, or a second error in a burst after it
was written whole (R244; that the 16 fell within one hour is the sender's to know, log 61). -/
def State.mapOutDue (s : State) (f : Nat) (u : MemUnit) : Bool :=
  (unitChannels u).any fun c =>
    let es := s.mem.errors.filter fun e => decide (e.burst.frame = f ∧ e.burst.tier = unitTier u ∧ e.channel = c)
    decide (16 ≤ es.length) || es.any fun e => e.again

/-- A resource goes out (R245): its page frames are lost or restore, MEMMAP_STATE shows CHOOSING unless an earlier map-out restores,
and the firings are checked again. -/
def State.takeOut (s : State) (f : Nat) (u : MemUnit) : State :=
  let back := fun p => s.twinRestores f && s.pageMirrored ⟨f, unitTier u, p⟩
  let t := s.modFrame f fun x => { x with mem :=
    let m := { x.mem with choosing := x.mem.choosing ++ [u], mapState := if x.mem.mapState = 2 then 2 else 1 }
    match u with
    | .channel c => { m with chOut := m.chOut ++ [c] }
    | .package p => { m with pkgOut := m.pkgOut ++ [p] } }
  let live := (affectedPages u).filter fun p => !s.mem.retired.contains ⟨f, unitTier u, p⟩
  (t.forEach live fun t p => t.losePage ⟨f, unitTier u, p⟩ (back p)).askRecheck.staleBanks none

/-- The page frames that the map-out of a resource retires on a frame. -/
def State.retireOf (s : State) (f : Nat) (u : MemUnit) (moves : List (Nat × Nat)) : Retire :=
  let k := match u with
    | .channel c => (s.frame f).mem.outOn c
    | .package _ => 0
  ⟨f, unitTier u, retiredPages u k, moves⟩

/-- The choice for a resource that is out (R246): its retired page frames go out of use, those in use go to their targets, and the
twin learns both. -/
def State.chooseTargets (s : State) (f : Nat) (u : MemUnit) (moves : List (Nat × Nat)) : State :=
  let r := s.retireOf f u moves
  s.when (s.movesOk r) fun s =>
    let back := fun p => s.mem.restoring.contains ⟨f, unitTier u, p⟩
    let t := s.forEach moves fun t q => t.losePage ⟨f, unitTier u, q.2⟩ (back q.1)
    let t := (t.relocatePages r).retirePages r
    let t := if s.twinRestores f then t else t.coolLost f (unitTier u)
    let t := t.tell f 0x08 ([(unitTier u).num] ++ r.retired ++ moves.flatMap fun q => [q.1, q.2])
    (t.modFrame f fun x => { x with mem := { x.mem with choosing := x.mem.choosing.filter (· ≠ u) } }).settleMap f true

/-- A resource is mapped out. -/
def FrameMem.isOut (m : FrameMem) : MemUnit → Bool
  | .channel c => m.chOut.contains c
  | .package p => m.pkgOut.contains p

/-- MAP_OUT: a resource that fails training, or whose errors call for it, goes out; the next MAP_OUT of it is the choice of
R246, with `moves` the targets that the kiln chose for retired page frames in use (log 61). -/
def execMapOut (frame : Nat) (unit : MemUnit) (moves : List (Nat × Nat)) (s : State) (training : Bool := false) : Outcome :=
  within (frameOk frame && unit.ok)
    (s.when (s.kilnActs frame) fun s =>
      let m := (s.frame frame).mem
      if m.isOut unit then (if m.choosing.contains unit then s.chooseTargets frame unit moves else s)
      else if training || s.mapOutDue frame unit then s.takeOut frame unit
      else s)

/-- MAPOUT from the twin (R246): the same page frames retire here, and their contents go to the same targets. -/
def execMapout (frame : Nat) (tier : Tier) (retired : List Nat) (moves : List (Nat × Nat)) (s : State) : Outcome :=
  within (frameOk frame) (s.when (s.up && s.twin.paired && !(s.frame frame).fenced) fun s =>
    let r : Retire := ⟨frame, tier, retired, moves⟩
    s.when (s.targetsOk r) fun s =>
      let t := s.forEach moves fun t m => t.forEach (List.range 1024) fun t i =>
        t.copyBurst ⟨frame, tier, m.1 * 1024 + i⟩ ⟨frame, tier, m.2 * 1024 + i⟩
      (t.relocatePages r).retirePages r)

/-! ## PAGE_RESTORE (R241, R245) -/

/-- Cold operations of rows that can be updated now are applied, in order (R91, R241). -/
def State.applyReadyCold (s : State) (f : Nat) : State :=
  let keys := ((s.frame f).cold.map fun c => (⟨c.op.table.toNat, c.op.row.toNat⟩ : RowKey)).eraseDups
  s.forEach keys fun t k =>
    match t.rowAt f k.table k.row with
    | none => t
    | some q =>
      let e := t.entryAt q
      let acc := (t.frame f).cold.any fun c => decide (c.op.table.toNat = k.table ∧ c.op.row.toNat = k.row) && t.accBad f c.op c.src
      if t.entryBad q ∨ !e.present ∨ q.table.desc.badEntry e ∨ t.rowBad (e.unit f) e.cls q.table.desc.blocks ∨ acc then t
      else t.applyCold f q k.table k.row e

/-- A page frame written whole with the twin's copy. -/
def State.restorePage (s : State) (g : Unit64) (data side : List Byte) : State :=
  let p : Place := ⟨g.frame, g.tier, g.num * 65536⟩
  let t := (s.pokeDev p (padTo 65536 data)).clearPoison p 65536
  { t with mem := { t.mem with
      side := t.mem.side.setBytes p.burst.sideKey (padTo 4096 side),
      restoring := t.mem.restoring.filter (· ≠ g) } }

/-- A page frame is the next to restore of its tier: the choice is made, and it is the lowest (R245). -/
def State.restoresNext (s : State) (g : Unit64) : Bool :=
  decide ((s.frame g.frame).mem.mapState = 2) && s.mem.restoring.contains g &&
    s.mem.restoring.all fun h => decide (h.frame = g.frame ∧ h.tier = g.tier → g.num ≤ h.num)

/-- PAGE_RESTORE, in ascending address order: `data` and `side` are what the twin holds. -/
def execPageRestore (frame : Nat) (tier : Tier) (page : Nat) (data side : List Byte) (s : State) : Outcome :=
  within (frameOk frame) (s.when (s.up && s.restoresNext ⟨frame, tier, page⟩) fun s =>
    ((s.restorePage ⟨frame, tier, page⟩ data side).applyReadyCold frame).settleMap frame false)

end Sys2Proof.Machine
end

