-- ==== Sys2Proof/Machine/Twin.lean ====
section
/-! DEFINITION. The twin's side of a pair: STREAM_RECORD, DIRTY_RESEND, MIRROR_SWEEP, STREAM_ACK, DIGEST, BURST_REQ, TWIN_SILENCE,
SILENCE_SELF_FENCE, SILENCE_FENCE_ASSERT, TWIN_FENCE_IN, TWIN_FENCE_RELEASE, HELLO, PAIR_EVENT, CARRY_FWD, FWD_ACK, HANDOVER
(R96 to R103, R263, R264, R380 to R385, R391, R393, R395). -/

namespace Sys2Proof.Machine

/-- A paired module that is up, on a frame that is not fenced. -/
def State.pairUp (s : State) (f : Nat) : Bool := s.up && s.twin.paired && !(s.frame f).fenced

/-- The module is the secondary, or rejoins (R382). -/
def State.isSecondary (s : State) : Bool := decide (s.twin.role = 2 ∨ s.twin.role = 3)

/-! ## Digests (R100) -/

/-- The data and side bytes of a 64 KiB region. -/
def State.regionDigest (s : State) (g : Unit64) : Word64 :=
  let p : Place := ⟨g.frame, g.tier, g.num * 65536⟩
  Config.digest64 (s.devBytes p 65536 ++ s.mem.side.bytes p.burst.sideKey 4096)

/-- A write to a region is in flight: a record, a dirty mark or a resend of it is not acknowledged. -/
def Stream.inFlight (x : Stream) (g : Unit64) : Bool :=
  (x.unacked.any fun r => decide (r.tier = g.tier ∧ r.burst / 1024 = g.num)) || x.dirty.contains g ||
    x.resent.any fun r => decide (r.1 = g)

/-- The secondary answers the digests whose SEQ it has written; reading a region is charged to its scrub tally, and waits for
the next period without the units. -/
def State.answerDigests (s : State) (f : Nat) : State :=
  let st := (s.frame f).stream
  let ready := st.digests.filter fun d => decide (d.2.1 < st.written ∨ d.2.1 = 0)
  s.forEach ready fun t d =>
    match t.chargeScrub f 1024 with
    | none => t
    | some t => (t.modFrame f fun x => { x with stream := { x.stream with
        digests := x.stream.digests.filter fun e => decide (e ≠ d) } }).tell f 0x06
          [d.1.tier.num, d.1.num, d.2.1, (t.regionDigest d.1).toNat]

/-- MIRROR_SWEEP: the primary sends a region's digest, with the SEQ at which it took it; charged to the scrub tally. -/
def execMirrorSweep (frame : Nat) (tier : Tier) (region : Nat) (s : State) : Outcome :=
  within (frameOk frame) (s.when (s.pairUp frame && decide (s.twin.role = 1)) fun s =>
    let g : Unit64 := ⟨frame, tier, region⟩
    let st := (s.frame frame).stream
    s.when ((s.frame frame).streamUp && s.pageMirrored g && !st.inFlight g && !st.swept.contains g) fun s =>
      match s.chargeScrub frame 1024 with
      | none => s
      | some t => (t.modFrame frame fun x => { x with stream := { x.stream with swept := x.stream.swept ++ [g] } }).tell frame 0x06
          [tier.num, region, st.nextSeq - 1, (t.regionDigest g).toNat])

/-- DIGEST: the secondary computes its own and sends it back; the primary compares the answer, and marks a region that differs
dirty (log 63). -/
def execDigest (frame : Nat) (tier : Tier) (region seq : Nat) (value : Word64) (s : State) : Outcome :=
  within (frameOk frame) (s.when (s.pairUp frame) fun s =>
    let g : Unit64 := ⟨frame, tier, region⟩
    if s.isSecondary then
      (s.modFrame frame fun x => { x with stream := { x.stream with
        digests := x.stream.digests ++ [(g, seq, value)] } }).answerDigests frame
    else if s.twin.role = 1 ∧ (s.frame frame).stream.swept.contains g then
      let t := s.dropSwept ⟨frame, tier, region * 1024⟩
      if s.regionDigest g = value then t
      else
        let t := t.markDirty ⟨frame, tier, region * 1024⟩
        { t with twin := { t.twin with repairs := inc32 t.twin.repairs } }
    else s)

/-! ## Stream records (R98, R99, R241) -/

/-- A burst written whole from the twin's record, with no stream of its own. -/
def State.putRecord (s : State) (f : Nat) (r : StreamRec) : State :=
  let u : Unit64 := ⟨f, r.tier, r.burst⟩
  ((s.pokeDev u.place (fillTo 64 r.data)).pokeSide u (fillTo 4 r.side)).clearPoison u.place 64

/-- A stream record: the secondary writes it and acknowledges; the primary takes it as the answer for a poisoned burst. A slot whose
SEQ is all ones is empty. -/
def State.takeBurst (s : State) (frame : Nat) (r : StreamRec) : State :=
  s.when (decide (r.seq < 2 ^ 64 - 1) && decide (r.burst * 64 + 64 ≤ r.tier.bytes)) fun s =>
    if s.isSecondary then
      let t := (s.putRecord frame r).modFrame frame fun x => { x with stream := { x.stream with
        written := max x.stream.written (r.seq + 1) } }
      (t.tell frame 0x02 [(t.frame frame).stream.written - 1]).answerDigests frame
    else if s.twin.role = 1 ∧ s.badBurst ⟨frame, r.tier, r.burst⟩ then (s.putRecord frame r).applyReadyCold frame
    else s

/-- STREAM_RECORD (R98, R104, R380): a stream record, or a copy for the secondary's saggars. -/
def execStreamRecord (frame : Nat) (r : TwinRec) (s : State) : Outcome :=
  within (frameOk frame) (s.when (s.pairUp frame) fun s =>
    match r with
    | .burst r => s.takeBurst frame r
    | .journal r => s.when (s.isSecondary && decide (r.frame < 20)) fun s => s.putCopy none (.journal r)
    | .checkpoint c => s.when (s.isSecondary && decide (c.frame < 20)) fun s => s.putCopy none (.checkpoint c)
    | .extent e i => s.when s.isSecondary fun s => s.putCopy none (.extent e i))

/-- Regions whose resend an acknowledgement of a frame's SEQ covers wait no longer (R99). -/
def Known.clear (k : Known) (done : List (Unit64 × Nat)) : Known :=
  { k with regions := k.regions.filter fun g => !done.any fun q => decide (q.1 = g.1 ∧ g.2 ≤ q.2) }

/-- STREAM_ACK: what the twin has written is acknowledged; held pair events, row commands and a handover may go on. -/
def execStreamAck (frame seq : Nat) (s : State) : Outcome :=
  within (frameOk frame) (s.when (s.pairUp frame && decide (s.twin.role = 1)) fun s =>
    let done := (s.frame frame).stream.resent.filter fun q => decide (q.2 ≤ seq)
    let t := s.modFrame frame fun x => { x with stream := { x.stream with
      unacked := x.stream.unacked.filter fun r => decide (seq < r.seq),
      resent := x.stream.resent.filter fun q => decide (seq < q.2) } }
    let t := t.when (decide (done ≠ [])) fun t => t.mapKnown fun k => k.clear done
    (((t.settleMirror frame).releaseEvents).finishRows).handoverStep)

/-- Regions in address order: tier H first. -/
def regionBefore (a b : Unit64) : Bool := decide (a.tier.num < b.tier.num ∨ (a.tier.num = b.tier.num ∧ a.num < b.num))

/-- The first region of a list in address order. -/
def firstRegion (g : Unit64) (l : List Unit64) : Unit64 := l.foldl (fun a b => if regionBefore b a then b else a) g

/-- One burst of a region sent again. -/
def State.resendBurst (s : State) (u : Unit64) : State :=
  if s.badBurst u then s
  else
    let st := (s.frame u.frame).stream
    let r : StreamRec := ⟨st.nextSeq, u.tier, u.num, s.sideBytes u, s.devBytes u.place 64⟩
    (s.modFrame u.frame fun x => { x with stream := { x.stream with
      nextSeq := st.nextSeq + 1, unacked := x.stream.unacked ++ [r] } }).sendRecord u.frame r

/-- DIRTY_RESEND: the next dirty region of a frame, in address order, after all earlier records. -/
def execDirtyResend (frame : Nat) (s : State) : Outcome :=
  within (frameOk frame) (s.when (s.pairUp frame && decide (s.twin.role = 1) && (s.frame frame).streamUp) fun s =>
    let st := (s.frame frame).stream
    match st.dirty with
    | [] => s
    | d :: ds =>
      let g := firstRegion d ds
      s.when (decide (st.unacked.length + 1024 ≤ 65536)) fun s =>
        let t := s.modFrame frame fun x => { x with stream := { x.stream with dirty := x.stream.dirty.filter (· ≠ g) } }
        let t := t.forEach g.pageBursts State.resendBurst
        let n := (t.frame frame).stream.nextSeq
        State.finishRows ((t.modFrame frame fun x => { x with stream := { x.stream with
          resent := if n = st.nextSeq then x.stream.resent else x.stream.resent ++ [(g, n - 1)] } }).settleMirror frame))

/-- BURST_REQ: a burst that is good here goes to the twin: on the primary as the next record of its stream. -/
def execBurstReq (frame : Nat) (tier : Tier) (burst : Nat) (s : State) : Outcome :=
  within (frameOk frame && decide (burst * 64 + 64 ≤ tier.bytes)) (s.when (s.pairUp frame) fun s =>
    let u : Unit64 := ⟨frame, tier, burst⟩
    if s.badBurst u then s
    else if s.twin.role = 1 then s.streamBurst u
    else s.sendRecord frame ⟨(s.frame frame).stream.nextSeq, tier, burst, s.sideBytes u, s.devBytes u.place 64⟩)

/-! ## Silence and fences (R101, R391, R393, R395) -/

/-- TWIN_SILENCE: no flit on any twin lane; every frame is DOWN. -/
def execTwinSilence (s : State) : Outcome :=
  within true (s.when (s.up && s.twin.paired && !s.twin.far) fun s =>
    ({ s with twin := { s.twin with silence := true, peerRole := 0 } } : State).forEach (List.range 20) State.streamDown)

/-- A twin-fencing reset. -/
def State.fenceSelf (s : State) (frames : List BootFrame) : State := s.moduleScope (fun k => { k with twinFence := true }) frames

/-- SILENCE_SELF_FENCE: a live primary that still hears nothing after 500 µs. -/
def execSilenceSelfFence (frames : List BootFrame) (s : State) : Outcome :=
  within true (s.when (s.up && s.twin.paired && s.twin.silence && decide (s.twin.role = 1)) fun s => s.fenceSelf frames)

/-- SILENCE_FENCE_ASSERT: a secondary that does not rejoin asserts the twin-fence signal, and becomes primary at a quiescent point
of every frame. -/
def execSilenceFenceAssert (s : State) : Outcome :=
  within true (s.when (s.up && s.twin.paired && s.twin.silence && decide (s.twin.role = 2)) fun s =>
    ({ s with twin := { s.twin with fenceOut := true } } : State).requestAction (BitVec.ofNat 20 (2 ^ 20 - 1)) .promoteTwin)

/-- TWIN_FENCE_IN: the twin asserts the signal on a connector, TW0 or TW4; the module resets at the first (R391, R468; log 64). -/
def execTwinFenceIn (s : State) (tw4 : Bool := false) : Outcome :=
  within true
    (let t : State := { s with seqr := { s.seqr with fenceIn := setBit s.seqr.fenceIn (bit tw4) true } }
     t.when (!s.seqr.twinFence && t.sampled) fun t => t.fenceSelf [])

/-- TWIN_FENCE_RELEASE: the new primary releases the signal; a fenced module boots once its input is released on both connectors. -/
def execTwinFenceRelease (frames : List BootFrame) (s : State) (tw4 : Bool := false) : Outcome :=
  within true
    (if s.seqr.twinFence then
      let t : State := { s with seqr := { s.seqr with fenceIn := setBit s.seqr.fenceIn (bit tw4) false } }
      t.when (decide (t.seqr.phase = .step3) && !t.seqr.twinFence) fun t => t.runBoot frames
    else s.when (s.up && s.twin.fenceOut && decide (s.twin.role = 1)) fun s =>
      { s with twin := { s.twin with fenceOut := false } })

/-! ## HELLO (R381, R382, R385) -/

/-- This module wins a comparison of epochs; module IDs settle equal ones, the lower one first. -/
def State.winsEpoch (s : State) (mine theirs : BitVec 16) (peer : BitVec 16) : Bool :=
  decide (theirs < mine ∨ (mine = theirs ∧ s.fabric.moduleId < peer))

/-- The twin is primary. A rejoining module is DIRTY on every frame, and takes a frame as CLEAN only after the primary has
reported it DIRTY, or where no range is mirrored (R100; log 65). -/
def State.peerPrimary (s : State) (f : Nat) (m : HelloMsg) (frames : List BootFrame) : State :=
  if s.twin.role = 1 then (if s.winsEpoch s.twin.epoch m.epoch m.moduleId then s else s.fenceSelf frames)
  else if s.twin.role = 0 then
    let t := (({ s with twin := { s.twin with epoch := m.epoch, joinSeen := 0 } } : State).restartStreams).setRole 3
    t.forEach (List.range 20) fun t f => if (t.frame f).streamUp then t.setMirror f 1 else t
  else
    let seen := decide (m.mirror = 1) || inMask s.twin.joinSeen f
    let t : State := { s with twin := { s.twin with epoch := m.epoch, joinSeen := setBit s.twin.joinSeen f seen } }
    let t := t.when (decide (t.twin.role = 2 ∨ m.mirror ≠ 0 ∨ (t.frame f).mirrored = []) || seen) fun t =>
      t.setMirror f m.mirror.toNat
    if t.twin.role = 3 ∧ (List.range 20).all (fun k => (t.frame k).fenced || decide (t.twin.mirrorOf k = 0)) then t.setRole 2
    else t

/-- Neither module has a role: the higher epoch of the last EPOCH_START becomes primary, in a new epoch. -/
def State.settleRoles (s : State) (m : HelloMsg) : State :=
  if s.twin.role = 0 ∧ s.winsEpoch s.twin.journalEpoch m.journalEpoch m.moduleId then
    ({ s with twin := { s.twin with epoch := s.twin.journalEpoch, silence := false } } : State).becomePrimary
  else s

/-- HELLO of a module that is paired (R382; log 65); a rejoining twin has every mirrored range marked dirty. -/
def execHello (frame : Nat) (m : HelloMsg) (frames : List BootFrame) (s : State) : Outcome :=
  within (frameOk frame) (s.when (s.pairUp frame) fun s =>
    let joins := decide (m.role = 3 ∧ s.twin.peerRole ≠ 3 ∧ s.twin.role = 1)
    let t : State := { s with twin := { s.twin with
      peerId := m.moduleId, peerRole := m.role.toNat, helloSeen := true, silence := false } }
    let t := t.when (t.twin.far && !(t.frame frame).streamUp) fun t => t.streamStart frame
    let t := t.when joins State.dirtyAll
    (match m.role.toNat with
    | 0 => t.settleRoles m
    | 1 => t.peerPrimary frame m frames
    | _ => t).tryBand2)

/-! ## Pair events, forwarded operations, handover (R96, R102, R103, R264) -/

/-- PAIR_EVENT: counted now, or in the next step of the bead's firing. -/
def execPairEvent (target : BeadId) (counter : BitVec 5) (s : State) : Outcome :=
  within target.ok (s.when (s.pairUp target.frame) fun s =>
    match s.firings.find? fun f => f.rods.contains target.rod with
    | none => s
    | some f =>
      if f.step.isSome then s.bump target counter.toNat
      else s.modFiring f.handle fun f => { f with keptEvents := f.keptEvents ++ [(target, counter.toNat)] })

/-- CARRY_FWD: the primary applies an operation that the secondary forwards; one that comes during a handover is kept, and one that
comes after it is forwarded back (R102). -/
def execCarryFwd (frame num : Nat) (op : CarryOp) (s : State) : Outcome :=
  within (frameOk frame) (s.when (s.pairUp frame) fun s => s.takeOp frame op (.forwarded num) none)

/-- FWD_ACK: forwarded operations up to a number are applied on the primary. -/
def execFwdAck (num : Nat) (s : State) : Outcome :=
  within true (s.when (s.up && s.twin.paired) fun s =>
    let done := s.twin.fwds.filter fun w => decide (w.1 ≤ num)
    ({ s with twin := { s.twin with fwds := s.twin.fwds.filter fun w => decide (num < w.1) } } : State).forEach done fun t w =>
      t.settleOp w.2.1 w.2.2.2 true)

/-- HANDOVER: the secondary, which has written up to the last SEQ of each frame, becomes primary at a quiescent point of every
frame. -/
def execHandover (lastSeq : List Nat) (s : State) : Outcome :=
  within true (s.when (s.up && s.twin.paired && decide (s.twin.role = 2) && (List.range 20).all fun f =>
      (s.frame f).fenced || decide (lastSeq.getD f 0 = 0 ∨ lastSeq.getD f 0 < (s.frame f).stream.written)) fun s =>
    s.requestAction (BitVec.ofNat 20 (2 ^ 20 - 1)) .promoteTwin)

end Sys2Proof.Machine
end

