-- ==== Sys2Proof/Machine/Links.lean ====
section
/-! DEFINITION. Links and the fabric: CONE_SAMPLE, TALLY_PERIOD, FLIT_RECEIVE, NAK, LINK_TRAINING, IDENT, LINK_RETRAIN, TXN_WRITE, TXN_READ, TXN_RESP,
TXN_FORWARD, FABRIC_TIMEOUT_EXPIRE (R81, R211, R285, R286, R368 to R378). -/

namespace Sys2Proof.Machine

/-! ## A tally period ends -/

/-- TALLY_PERIOD (R351 to R354, R365): one 100 µs period of a frame ends and the next starts; the window accesses and the carry
operations that wait try again. -/
def execTallyPeriod (frame avgPower : Nat) (s : State) : Outcome :=
  within (frameOk frame)
    (s.when s.up fun s =>
      let t := ((s.countHolds frame).refill frame).modFrame frame fun x => { x with cone := x.cone.period avgPower }
      ((t.forEach (List.range 4) State.retryWindow).retryOps).answerDigests frame)

/-- CONE_SAMPLE (R361 to R365): RATE in M array-operations per second, power in 0.1 W. -/
def execConeSample (frame rate power : Nat) (s : State) : Outcome :=
  within (frameOk frame)
    (s.when s.up fun s =>
      let c := (s.frame frame).cone
      let c' := c.sample (s.frame frame).kiln.absent rate power
      let t := s.modFrame frame fun x => { x with cone := c' }
      (t.when (c'.overridden && !c.overridden) fun t => t.raiseOverride frame).admitsReached.masterFree)

/-! ## Retraining (R373) -/

/-- A 16-bit counter that saturates. -/
def sat16 (n : Nat) : Nat := min n 0xFFFF

/-- A link retrains; the stream of a twin link's frame is DOWN meanwhile. -/
def State.retrain (s : State) (f k : Nat) : State :=
  let t := s.modLink f k fun l => { l with state := 1, retrains := sat16 (l.retrains + 1) }
  if k = 3 then t.streamDown f else t

/-- The frame's links work: released, and the frame is not fenced. -/
def State.linksUp (s : State) (f : Nat) : Bool := s.up && !(s.frame f).fenced

/-- LINK_RETRAIN. -/
def execLinkRetrain (frame link : Nat) (s : State) : Outcome :=
  within (linkOk frame link) (s.when (s.linksUp frame && ((s.frame frame).link link).up) fun s => s.retrain frame link)

/-! ## Replay (R370) -/

/-- Flits up to an acknowledged FSEQ leave the replay buffer. -/
def Link.acked (l : Link) (ack : BitVec 12) : Link :=
  match l.replay.findIdx? fun q => decide (q.fseq = ack) with
  | some i => { l with replay := l.replay.drop (i + 1) }
  | none => l

/-- Every flit after ACK goes out again, in order. -/
def Link.resend (l : Link) (ack : BitVec 12) : Link :=
  let l := l.acked ack
  let again := l.replay.map fun q => { q with resends := q.resends + 1 }
  if again = [] then l
  else again.foldl (fun l q => l.putFlit q false) { l with replay := again, replays := sat16 (l.replays + 1) }

/-- Some flit has been resent 8 times in succession. -/
def Link.worn (l : Link) : Bool := l.replay.any fun q => decide (8 ≤ q.resends)

/-- A NAK is taken. -/
def State.takeNak (s : State) (f k : Nat) (ack : BitVec 12) : State :=
  let t := s.modLink f k fun l => l.resend ack
  if ((t.frame f).link k).worn then t.retrain f k else t

/-- NAK: the peer names the last good FSEQ that it received. -/
def execNak (frame link : Nat) (ack : BitVec 12) (s : State) : Outcome :=
  within (linkOk frame link) (s.when (s.linksUp frame && ((s.frame frame).link link).up) fun s => s.takeNak frame link ack)

/-! ## Receiving (R368 to R371) -/

/-- NAK for a gap, once. -/
def Link.gap (l : Link) : Link :=
  if l.nakSent then l else ({ l with nakSent := true, naks := l.naks ++ [l.lastGood] } : Link).idle true

/-- ACK and CREDITS of a good flit. -/
def Link.returns (l : Link) (f : Flit) : Link :=
  let l := l.acked f.ack
  { l with credits := Sparse.write 0 l.credits f.credVc.toNat (l.credit f.credVc + f.credits) }

/-- A sequenced flit: accepted one past the last good one, otherwise a gap. Its buffer is freed as its payload is handed on. -/
def Link.accept (l : Link) (f : Flit) : Link :=
  if f.type = 0 then l
  else if f.fseq = l.lastGood + 1 then
    { l with
      lastGood := f.fseq, nakSent := false, received := l.received ++ [(f.vc, f.payload)],
      owed := Sparse.write 0 l.owed f.vc.toNat (Sparse.read 0 l.owed f.vc.toNat + 1) }
  else l.gap

/-- What waits goes out; where nothing does after an accepted flit, an IDLE acknowledges it and returns its credit (R368, R371;
log 110). -/
def Link.answer (l : Link) (before : BitVec 12) : Link :=
  let m := l.pump
  if m.wire.length = l.wire.length ∧ l.lastGood ≠ before then m.idle false else m

/-- FLIT_RECEIVE: codewords corrected, then the CRC; a flit that fails it is discarded, and a sequenced one leaves a gap (log
110). -/
def execFlitReceive (frame link : Nat) (f : Flit) (s : State) : Outcome :=
  within (linkOk frame link) (s.when (s.linksUp frame && ((s.frame frame).link link).up) fun s =>
    let t := s.modLink frame link fun l => { l with fecCorr := sat32 (l.fecCorr + f.corrected) }
    if !f.crcGood then t.modLink frame link fun l =>
      let l := { l with crcErrs := inc32 l.crcErrs }
      if f.type = 0 then l else l.gap
    else
      let before := ((t.frame frame).link link).lastGood
      let t := t.modLink frame link fun l => (l.returns f).accept f
      let t := if f.nak then t.takeNak frame link f.ack else t
      t.modLink frame link fun l => l.answer before)

/-! ## Training (R371, R372) -/

/-- Receive buffers of a virtual channel, granted as credits at L0. -/
def vcBuffers (link vc : Nat) : Nat :=
  if link = 3 then (if vc < 2 then 32 else if vc = 2 then 256 else 64) else if vc < 2 then 64 else 0

/-- Credits at L0: every buffer but those that the flits to be resent take. -/
def Link.grant (l : Link) (link : Nat) : Link :=
  { l with credits := (List.range 4).foldl (fun m vc =>
      Sparse.write 0 m vc (vcBuffers link vc - (l.replay.filter fun q => decide (q.vc.toNat = vc)).length)) [] }

/-- A twin link's peer is the one that TWIN_CFG names, on the same frame. -/
def State.twinPeer (s : State) (f : Nat) (p : PeerIdent) : Bool :=
  s.twin.paired && p.twinKind && decide (p.frame.toNat = f ∧ p.moduleId = s.twin.peer)

/-- The link after IDENT: the same peer finds the replay buffer resent, another one a new sequence. -/
def Link.meet (l : Link) (link : Nat) (p : PeerIdent) (state : Nat) : Link :=
  let l := if l.peer = p then l else
    { l with replay := [], queue := [], nextFseq := 0, lastGood := 0xFFF, nakSent := false }
  let again := l.replay.map fun q => { q with resends := 0 }
  ((again.foldl (fun (l : Link) q => l.putFlit q false) { l with peer := p, state := state, replay := again, owed := [] }).grant link).pump

/-- IDENT of a link that has trained its lanes: L0, or MISWIRED on a twin link. -/
def State.identify (s : State) (f k : Nat) (p : PeerIdent) : State :=
  let lanes := ((s.frame f).link k).lanes
  if k = 3 then
    if lanes < 4 then s
    else if s.twinPeer f p then
      let t := s.modLink f k fun l => l.meet k p 2
      ({ t with twin := { t.twin with silence := false } } : State).streamStart f
    else s.modLink f k fun l => { l with peer := p, state := 4 }
  else if lanes < 2 then s
  else s.modLink f k fun l => l.meet k p (if lanes < 4 then 3 else 2)

/-- SerDes seeds of the link's lanes, at its training (R372, R441, R442). -/
def State.trainLink (s : State) (f k : Nat) : State :=
  s.modFrame f fun x => { x with cal := { x.cal with
    serdes := Sparse.write [] x.cal.serdes k (if x.cal.generic then [] else s.calField f (0x548 + 128 * k) 128) } }

/-- LINK_TRAINING: lanes found, then IDENT; with too few lanes the link goes on training. -/
def execLinkTraining (frame link lanes : Nat) (peer : PeerIdent) (s : State) : Outcome :=
  within (linkOk frame link) (s.when (s.linksUp frame && !((s.frame frame).link link).up) fun s =>
    ((s.trainLink frame link).modLink frame link fun l => { l with state := 1, lanes := min lanes 4 }).identify frame link peer)

/-- IDENT of a link in training or MISWIRED. -/
def execIdent (frame link : Nat) (peer : PeerIdent) (s : State) : Outcome :=
  within (linkOk frame link) (s.when (s.linksUp frame && !((s.frame frame).link link).up) fun s =>
    s.identify frame link peer)

/-! ## Inbound windows (R285, R286, R377, R378) -/

/-- A transaction has arrived whole for this module. -/
def State.arrives (s : State) (t : Txn) : Bool := s.fabric.idSet && decide (t.dst = s.fabric.moduleId) && t.tcrcGood

/-- A rejected access reads or writes nothing, and counts in WIN_REJECTS of the frame that received it. -/
def State.reject (s : State) (f : Nat) (t : Txn) : State :=
  (s.modCounters f fun c => { c with winRejects := inc32 c.winRejects }).respond t 1 []

/-- A window that lets its sender in. -/
def Window.admits (w : Window) (t : Txn) : Bool := w.anySource || decide (w.source = t.src)

/-- The far twin's traffic comes to window 4,095; what it carries is the twin's own commands (R385; log 57). -/
def State.farTraffic (s : State) (t : Txn) : Bool :=
  s.twin.paired && s.twin.far && decide (t.window = 4095 ∧ t.src = s.twin.peer)

/-- A write to a KIND 0 window: refused as a whole on the secondary in a mirrored range; a burst that is poisoned is not merged
into (R96, R241; log 66). -/
def State.windowStore (s : State) (f : Nat) (t : Txn) (w : Window) (pins : List PinPage) : State :=
  let va := w.base + t.offset
  let ps := pinPieces pins va t.data.length
  if ps.any fun q => s.secondaryBars q.1 q.2 then s.reject f t
  else if ps.any fun q => (q.1.bursts q.2).any fun u => s.badBurst u && !q.1.covers q.2 u then
    (s.countPoison f).respond t 3 []
  else (s.pinWrite pins va t.data).respond t 0 []

/-- A write to a KIND 1 window is one whole carry operation, handed to the frame's dispatcher; it is answered once that has
accepted it (R81, R286). -/
def State.windowCarry (s : State) (f : Nat) (t : Txn) : State :=
  if t.offset ≠ 0 ∨ opLength t.data ≠ some t.data.length then s.reject f t
  else s.takeOp f (parseOp t.data) (.window t.window f) (some t)

/-- TXN_WRITE. -/
def execTxnWrite (frame : Nat) (t : Txn) (s : State) : Outcome :=
  within (frameOk frame) (s.when (s.linksUp frame && s.arrives t) fun s =>
    if s.farTraffic t then s.respond t 0 []
    else match Sparse.find s.fabric.windows t.window with
    | none => s.reject frame t
    | some w =>
      if !w.admits t ∨ !w.write then s.reject frame t
      else if w.carry then s.windowCarry frame t
      else if t.data.length = 0 ∨ 4096 < t.data.length ∨ w.size < t.offset + t.data.length then s.reject frame t
      else s.windowStore frame t w (Sparse.read [] s.fabric.winPins t.window))

/-- TXN_READ: a burst that is poisoned answers POISON. -/
def execTxnRead (frame : Nat) (t : Txn) (s : State) (found : List BurstFound := []) : Outcome :=
  within (frameOk frame) (s.when (s.linksUp frame && s.arrives t) fun s =>
    match Sparse.find s.fabric.windows t.window with
    | none => s.reject frame t
    | some w =>
      let pins := Sparse.read [] s.fabric.winPins t.window
      let va := w.base + t.offset
      if !w.admits t ∨ !w.read ∨ w.carry ∨ t.length = 0 ∨ 4096 < t.length ∨ w.size < t.offset + t.length then
        s.reject frame t
      else
        let s := s.findErrors ((pinPieces pins va t.length).flatMap fun q => q.1.bursts q.2) found
        if (s.pinBad pins va t.length).isSome then (s.countPoison frame).respond t 3 []
        else s.respond t 0 (s.pinBytes pins va t.length))

/-! ## Answers (R378, R481) -/

/-- Data of a READ goes to its part of the destination. -/
def State.landData (s : State) (o : TxnOut) (m : MvCopy) (data : List Byte) : State :=
  match m.dst with
  | .command c off => s.modCmd c fun x => { x with buf := x.buf.setBytes off (data.take m.len) }
  | _ =>
    match s.firing o.handle with
    | none => s
    | some f =>
      match f.step with
      | none => s
      | some st =>
        let a := channel3 o.rod f
        let t := s.writePieces o.rod f (copyCmds st m) (s.reaches a m.dst m.len true) (fillTo m.len data)
        t.noteWrote o.rod 3 (s.wroteSince t a [m])

/-- A transaction is no longer outstanding. -/
def State.closeTxn (s : State) (tid : BitVec 16) : State :=
  ({ s with fabric := { s.fabric with outstanding := s.fabric.outstanding.filter fun o => decide (o.tid ≠ tid) } } : State).settleTlb

/-- TXN_RESP: one that comes after its timeout is discarded. -/
def execTxnResp (t : Txn) (s : State) : Outcome :=
  within true (s.when (s.up && s.arrives t) fun s =>
    match s.fabric.outstanding.find? fun o => decide (o.tid = t.tid) with
    | none => s
    | some o =>
      let u := s.closeTxn t.tid
      if t.status ≠ 0 then u.badAnswer o.handle o.into
      else u.withSome o.into fun u m => u.landData o m t.data)

/-- FABRIC_TIMEOUT_EXPIRE: no response in time is a rejection. -/
def execFabricTimeoutExpire (tid : BitVec 16) (s : State) : Outcome :=
  within true (s.when s.up fun s =>
    match s.fabric.outstanding.find? fun o => decide (o.tid = tid) with
    | none => s
    | some o =>
      let u := s.closeTxn tid
      ({ u with fabric := { u.fabric with timeouts := inc32 u.fabric.timeouts } } : State).badAnswer o.handle o.into)

/-- TXN_FORWARD (R376, R378): on to the best candidate link; without a route the transaction is discarded, and a request is
answered NOROUTE. A request without data is a READ. -/
def execTxnForward (frame : Nat) (t : Txn) (request : Bool) (s : State) : Outcome :=
  within (frameOk frame) (s.when (s.linksUp frame && s.fabric.idSet && decide (t.dst ≠ s.fabric.moduleId)) fun s =>
    match s.routeLink t.dst (if request then 0 else 1) with
    | some k => s.sendTxn k (if !request then 3 else if t.data = [] then 2 else 1) t
    | none =>
      let u : State := { s with fabric := { s.fabric with noRoute := inc32 s.fabric.noRoute } }
      if request then u.respond t 2 [] else u)

end Sys2Proof.Machine
end

