-- ==== Sys2Proof/Machine/Setup.lean ====
section
/-! DEFINITION. Writes of set-up registers through a port's set-up BAR: REGISTER_WRITE, FRAME_CAP_WRITE, SPEED_WRITE, ACCT_FREE (R3,
R5, R213, R287, R289, R344, R359, R364, R366, R408 to R411, R416, R430, R444 to R457). -/

namespace Sys2Proof.Machine

/-! ## Staged copies (R409, R411, R449) -/

/-- The bank after an accepted staged write. -/
def BankState.written (b : BankState) : BankState := { b with state := 1, reason := 0, entry := 0, list := [] }

/-- A value that the field of a bank register may hold (R213, R416, R446). -/
def bankValueOk (off : Nat) (w : Word64) : Bool :=
  if off = 0x0428 then decide (bits w.toNat 22 0 ≤ 4194304)
  else if off = 0x0510 then decide (bits w.toNat 16 0 ≤ 65536)
  else true

/-- The offsets of the bank registers (R450, R452, R456). -/
def bankOffset (off : Nat) : Bool :=
  [0x0028, 0x0408, 0x0420, 0x0428, 0x0480, 0x0508, 0x0510, 0x0580].contains off ||
    decide (0x3480 ≤ off ∧ off < 0x3480 + 8 * 20 ∧ off % 8 = 0)

/-- The staged copy of a bank register takes a value. -/
def BankRegs.put (b : BankRegs) (off : Nat) (w : Word64) : BankRegs :=
  if off = 0x0028 then { b with shadowBase := w.extractLsb' 16 36 }
  else if off = 0x0408 then { b with acctBase := w.extractLsb' 14 38 }
  else if off = 0x0420 then { b with poolBase := w.extractLsb' 14 38 }
  else if off = 0x0428 then { b with poolBlocks := bits w.toNat 22 0 }
  else if off = 0x0480 then { b with serveOnly := w.getLsbD 0 }
  else if off = 0x0508 then { b with listBase := w.extractLsb' 6 46 }
  else if off = 0x0510 then { b with listCount := bits w.toNat 16 0 }
  else if off = 0x0580 then { b with ptFrame := w.extractLsb' 3 5, ptOffset := w.extractLsb' 16 48 }
  else { b with winCarry := Sparse.write 0 b.winCarry ((off - 0x3480) / 8) (bits w.toNat 31 0) }

/-- A write of a bank register at its live or its staged address (R409). -/
def State.stageBank (s : State) (n off : Nat) (w : Word64) : State :=
  if !bankValueOk off w then s.setupErr n
  else s.modPart n fun p =>
    if p.bank.writable then { p with staged := p.staged.put off w, bank := p.bank.written }
    else { p with bank := { p.bank with lateWrite := true } }

/-! ## The cap and the speed of a frame (R364, R366) -/

/-- A write of FRAME_CAP_f whose value lies in 20 to 95 W; a FIRING_RESUME that waits tries again (R356). -/
def State.putCap (s : State) (f v : Nat) : State :=
  (s.modFrame f fun x => { x with cone := { x.cone with cap := v } }).retryResumes f

/-- A write of SPEED_f whose value lies in 700 to 1,000 M. -/
def State.putSpeed (s : State) (f v : Nat) : State := s.modFrame f fun x => { x with cone := { x.cone with speed := v } }

/-- FRAME_CAP_f through port `n`: only a frame of the partition; another value than 20 to 95 discards the write. -/
def State.writeCap (s : State) (n f : Nat) (w : Word64) : State :=
  let v := bits w.toNat 6 0
  if !inMask (s.part n).frames f then s
  else if v < 20 ∨ 95 < v then s.setupErr n
  else s.putCap f v

/-- SPEED_f through port `n`. -/
def State.writeSpeed (s : State) (n f : Nat) (w : Word64) : State :=
  let v := bits w.toNat 9 0
  if !inMask (s.part n).frames f then s
  else if v < 700 ∨ 1000 < v then s.setupErr n
  else s.putSpeed f v

/-- FRAME_CAP_WRITE. -/
def execFrameCapWrite (port frame : Nat) (value : Word64) (s : State) : Outcome :=
  within (portOk port && frameOk frame) (s.when (s.portUp port) fun s => s.writeCap port frame value)

/-- SPEED_WRITE. -/
def execSpeedWrite (port frame : Nat) (value : Word64) (s : State) : Outcome :=
  within (portOk port && frameOk frame) (s.when (s.portUp port) fun s => s.writeSpeed port frame value)

/-! ## Accounting (R359) -/

/-- ACCT_FREE frees a record with STATE 3 and is ignored otherwise. -/
def State.freeAcct (s : State) (n : Nat) (w : Word64) : State :=
  let k := bits w.toNat 7 0
  if (Sparse.read AcctRecord.free (s.part n).acct k).state = 3 then s.modRecord n k fun _ => AcctRecord.free else s

/-- ACCT_FREE: a write of the register. -/
def execAcctFree (port : Nat) (value : Word64) (s : State) : Outcome :=
  within (portOk port) (s.when (s.portUp port && s.partExists port) fun s => s.freeAcct port value)

/-! ## REGISTER_WRITE (R444 to R449) -/

/-- WIN_BIAS_i (R329, R330): each bit as a write of that bit alone. -/
def State.writeBias (s : State) (p i : Nat) (w : Word64) : State :=
  s.forEach (List.range 64) fun t k => if w.getLsbD k then t.biasSet p (64 * i + k) else t.biasClear p (64 * i + k)

/-- The port block, but for its bank register. -/
def State.writePortReg (s : State) (p off : Nat) (w : Word64) : State :=
  if off = 0x0008 then s.attachPort p w
  else if off = 0x0010 then s.modPort p (writeWinBase w)
  else if off = 0x0018 then s.modPort p fun x => { x with biasRefused := x.biasRefused && !w.getLsbD 2 }
  else if off = 0x0030 then s.writeShadowHead p w
  else if 0x0100 ≤ off ∧ off < 0x0300 then s.writeBias p ((off - 0x0100) / 8) w
  else s

/-- The partition, greenware and fault blocks of a partition that exists, but for the bank registers. -/
def State.writePartReg (s : State) (n off : Nat) (w : Word64) : State :=
  if off = 0x0410 then s.freeAcct n w
  else if off = 0x0460 then s.writeRodTest n w
  else if off = 0x0468 then s.modPart n fun p => { p with testRefused := p.testRefused && !w.getLsbD 2 }
  else if off = 0x0478 then s.modPart n fun p => { p with capStatus := p.capStatus &&& ~~~(w.setWidth 20) }
  else if off = 0x0500 then s.modPart n fun p => { p with bank := { p.bank with lateWrite := p.bank.lateWrite && !w.getLsbD 3 } }
  else if off = 0x0518 then (if w.getLsbD 0 then s.discardBank n else s)
  else if off = 0x0588 then s.modFaults n fun q => { q with ringBase := w.extractLsb' 12 52 }
  else if off = 0x0590 then s.writeFaultHead n w
  else s

/-- A register of a ring: all but ENABLE ignore writes while the ring is not OFF (R289). -/
def Ring.put (r : Ring) (cxl : Bool) (off : Nat) (w : Word64) : Ring :=
  if off = 0x18 then writeRingCtrl cxl w r
  else if r.state ≠ 0 then r
  else if off = 0x00 then { r with descBase := w.extractLsb' 12 52 }
  else if off = 0x08 then { r with cplBase := w.extractLsb' 12 52 }
  else if off = 0x10 then { r with dbAddr := w.extractLsb' 6 58 }
  else r

/-- The frame block (R366, R457): FRAME_CAP_f and SPEED_f. -/
def State.writeFrameReg (s : State) (n f off : Nat) (w : Word64) : State :=
  if off = 0x08 then s.writeCap n f w else if off = 0x10 then s.writeSpeed n f w else s

/-- An aligned 8 B write through port `n`'s set-up BAR. Fields that are RO, reserved bits and unlisted addresses ignore it; the
partition's blocks ignore it while the partition does not exist (R447). -/
def State.writeBar (s : State) (n off : Nat) (w : Word64) : State :=
  if bankOffset off then (if s.partExists n then s.stageBank n off w else s)
  else if 0x8000 ≤ off then
    (if off < 0xF000 ∧ bankOffset (off - 0x8000) ∧ s.partExists n then s.stageBank n (off - 0x8000) w else s)
  else if off < 0x0400 then s.writePortReg n off w
  else if off < 0x1000 then (if s.partExists n then s.writePartReg n off w else s)
  else if off < 0x2000 then s.modRing n ((off - 0x1000) / 64) fun r => r.put (s.port n).cxl (off % 64) w
  else if 0x4000 ≤ off ∧ off < 0x5400 then s.writeFrameReg n ((off - 0x4000) / 0x100) (off % 0x100) w
  else s

/-- REGISTER_WRITE: a write of another size or alignment than 8 B is discarded and counted (R445). -/
def execRegisterWrite (port offset size : Nat) (value : Word64) (s : State) : Outcome :=
  within (portOk port && decide (offset < 0x10000))
    (s.when (s.portUp port) fun s =>
      if size = 8 ∧ offset % 8 = 0 then s.writeBar port offset value else s.setupErr port)

end Sys2Proof.Machine
end

