-- ==== Sys2Proof/Machine/Saggars.lean ====
section
/-! DEFINITION. SMBus transactions as a whole, and the saggar bays: SAGGAR_INSERT, EJECT, ADOPT, SAGGAR_DRAIN_DONE, SAGGAR_REMOVE,
SAGGAR_REBUILD_DONE (R431 to R438, R474 to R476). -/

namespace Sys2Proof.Machine

/-! ## SMBus writes (R474 to R476) -/

/-- A write command: discarded while STATUS reads busy; STATUS 3 with a wrong PEC; STATUS 4 without a kiln master, but for what the
keep-alive domain serves. -/
def State.smbusWrite (s : State) (pec keepAlive : Bool) (g : State → State) : State :=
  if !s.seqr.kaUp ∨ s.smbus.result = 1 then s
  else if !pec then s.smbusDone 3
  else if !s.hasMaster ∧ !keepAlive then s.smbusDone 4
  else g s

/-! ## Bays (R431 to R438) -/

/-- The frames whose journal goes to a bay (R104). -/
def bayFrames : Bay → List Nat
  | .a => List.range 10
  | .b => (List.range 10).map (10 + ·)

/-- Where an inserted cartridge ends: STATE and REASON (R431, R432). -/
def State.judgeCart (s : State) (c : Cartridge) : Nat × Nat :=
  if !c.certGood then (2, 2)
  else if !c.answers then (2, 4)
  else if !c.signGood then (2, 1)
  else match c.header with
    | none => (2, 3)
    | some h => if h.1 = s.fabric.moduleId then (3, 0) else (2, 3)

/-- A cartridge that holds nothing of the bay's: what the twin's copy has it still lacks (log 56). -/
def State.blankBay (s : State) (k : Bay) (b : BayState) : BayState :=
  if s.twinReads k then { b with stale := [], lacks := b.rows.map fun p => p.1 }
  else { b with held := [], rows := [], stale := [], lacks := [], ckpts := [] }

/-- Without a twin a rebuild starts a complete checkpoint of the bay's frames (R436). -/
def State.startRebuild (s : State) (k : Bay) : State :=
  if s.twinReads k then s
  else s.forEach (bayFrames k) fun t f => t.modFrame f fun x =>
    if x.shardsOf f = [] then x else { x with journal := { x.journal with ckptLeft := some (x.shardsOf f) } }

/-- A bay whose cartridge is accepted rebuilds; one at the end of its life is READ_ONLY (R434). -/
def State.rebuildBay (s : State) (k : Bay) (b : BayState) : State :=
  (s.changeBay k (({ b with state := 3, reason := 0 } : BayState).wrote 0)).startRebuild k

/-- SAGGAR_INSERT: CHECKING, then REFUSED or REBUILDING. -/
def execSaggarInsert (bay : Bay) (cart : Cartridge) (s : State) : Outcome :=
  within true (s.when (s.kilnActs (s.bayFrame bay) && decide ((s.bay bay).state = 0)) fun s =>
    let b := s.bay bay
    let same := b.serial = cart.serial
    let old := if same then b else cart.holds.foldl BayState.take (s.blankBay bay b)
    let own := ((s.lives.find? fun p => decide (p.1 = cart.serial)).map fun p => p.2).getD 0
    let b := { old with cart := some cart, serial := cart.serial, written := own, saved := own, state := 1, lifeWarn := false, reason := 0 }
    let t := s.changeBay bay b
    let r := t.judgeCart cart
    if r.1 = 3 then t.rebuildBay bay b else t.changeBay bay { b with state := r.1, reason := r.2 })

/-- SAGGAR_CTRL.EJECT (R435): ignored, with REFUSED, when the other bay is not ONLINE, unless FORCE is written with it. -/
def State.eject (s : State) (k : Bay) (force : Bool) : State :=
  let b := s.bay k
  if (s.bay k.other).state ≠ 4 ∧ !force then { s with bayRefused := true }
  else if 2 ≤ b.state ∧ b.state ≤ 5 then s.changeBay k { b with state := 6 }
  else s

/-- SAGGAR_CTRL.ADOPT (R432): a FOREIGN cartridge is erased and rebuilt as a blank one. -/
def State.adopt (s : State) (k : Bay) : State :=
  let b := s.bay k
  if b.state = 2 ∧ b.reason = 3 then
    s.rebuildBay k { (s.blankBay k b) with
      cart := b.cart.map fun c => { c with header := some (s.fabric.moduleId, s.twin.epoch) } }
  else s

/-- EJECT: a write of SAGGAR_CTRL over SMBus. -/
def execEject (bay : Bay) (force : Bool) (s : State) : Outcome :=
  within true (s.smbusWrite true false fun s => (s.eject bay force).smbusDone 0)

/-- ADOPT: a write of SAGGAR_CTRL over SMBus. -/
def execAdopt (bay : Bay) (s : State) : Outcome :=
  within true (s.smbusWrite true false fun s => (s.adopt bay).smbusDone 0)

/-- SAGGAR_DRAIN_DONE (R435): the records already sent are acknowledged, and the bay is REMOVABLE. -/
def execSaggarDrainDone (bay : Bay) (s : State) : Outcome :=
  within true (s.when (s.up && decide ((s.bay bay).state = 6) && decide ((s.bay bay).sent = [])) fun s =>
    s.changeBay bay { (s.bay bay) with state := 7 })

/-- SAGGAR_REMOVE (R435, R437): the bay is ABSENT; records not acknowledged are sent again. -/
def execSaggarRemove (bay : Bay) (s : State) : Outcome := within true (s.when s.up fun s => s.bayGone bay)

/-- The rebuild of a bay ends: it has received what the twin's copy holds and it lacks; without the copy what it lacks is gone
(R107, R436). -/
def State.endRebuild (s : State) (k : Bay) (copies : List TwinRec) : State :=
  let t := if s.twinReads k then s.forEach copies fun t c => t.putCopy (some k) c
    else s.changeBay k { (s.bay k) with rows := (s.bay k).rows.filter fun p => !(s.bay k).lacks.contains p.1 }
  t.changeBay k { (t.bay k) with lacks := [], state := if (t.bay k).state = 3 then 4 else (t.bay k).state }

/-- SAGGAR_REBUILD_DONE (R435, R436): the bay is ONLINE; `copies` are the journal records, checkpoints and cold rows that came
from the twin's copy (log 56). -/
def execSaggarRebuildDone (bay : Bay) (s : State) (copies : List TwinRec := []) : Outcome :=
  within true (s.when (s.up && decide ((s.bay bay).state = 3)) fun s => s.endRebuild bay copies)

end Sys2Proof.Machine
end

