-- ==== Sys2Proof/Machine/Registers.lean ====
section
/-! DEFINITION. Reading every set-up register (chapter 19; R344, R289, R366, R416, R430, R438, R443, R387). -/

namespace Sys2Proof.Machine

/-- PORT_STATUS (R344). -/
def Port.statusWord (p : Port) : Nat :=
  p.state + bit p.cxl * 2 ^ 2 + bit p.flit * 2 ^ 3 + p.speed.toNat * 2 ^ 4 + p.width.toNat * 2 ^ 8 + p.epoch.toNat * 2 ^ 16

/-- WIN_STATUS (R344). -/
def Port.winStatusWord (p : Port) : Nat :=
  bit p.slideTo.isSome + bit (!p.clearing.isEmpty) * 2 + bit p.biasRefused * 4

/-- WIN_BIAS_i: bit k covers window page 64i + k (R329). -/
def Port.biasWord (p : Port) (i : Nat) : Nat :=
  (List.range 64).foldl (fun n k => n + bit (p.shared.contains (64 * i + k)) * 2 ^ k) 0

/-- Registers of the port block (R450). -/
def portReg (p : Port) (live : BankRegs) (off : Nat) : Nat :=
  if off = 0x0000 then p.statusWord
  else if off = 0x0010 then (p.slideTo.getD p.winBase).toNat * 2 ^ 28
  else if off = 0x0018 then p.winStatusWord
  else if off = 0x0020 then p.winErrs
  else if off = 0x0028 then live.shadowBase.toNat * 2 ^ 16
  else if off = 0x0030 then p.shadowHead.toNat
  else if off = 0x0038 then (if live.shadowBase = 0 then 0 else p.shadowUnread) + p.shadowTail.toNat * 2 ^ 16 + p.noRing * 2 ^ 32
  else if off = 0x0040 then p.setupErrs
  else if 0x0100 ≤ off ∧ off < 0x0300 ∧ off % 8 = 0 then p.biasWord ((off - 0x100) / 8)
  else 0

/-- GW_STATUS and MB_STATUS (R416, R465). -/
def BankState.word (b : BankState) : Nat :=
  b.state + bit b.lateWrite * 2 ^ 3 + b.reason * 2 ^ 8 + b.entry * 2 ^ 16

/-- FAULT_STATUS (R287). -/
def FaultQueue.statusWord (q : FaultQueue) : Nat :=
  q.entries.length + bit q.marker * 2 ^ 11 + q.stalled.length * 2 ^ 12 + q.overflows * 2 ^ 32

/-- PT_ROOT (R287). -/
def BankRegs.ptRoot (b : BankRegs) : Nat := b.ptFrame.toNat * 8 + b.ptOffset.toNat * 2 ^ 16

/-- The bank registers at their live offsets (the rows marked Bank or Staged in R450, R452, R456). -/
def bankReg (b : BankRegs) (off : Nat) : Nat :=
  if off = 0x0028 then b.shadowBase.toNat * 2 ^ 16
  else if off = 0x0408 then b.acctBase.toNat * 2 ^ 14
  else if off = 0x0420 then b.poolBase.toNat * 2 ^ 14
  else if off = 0x0428 then b.poolBlocks
  else if off = 0x0480 then bit b.serveOnly
  else if off = 0x0508 then b.listBase.toNat * 2 ^ 6
  else if off = 0x0510 then b.listCount
  else if off = 0x0580 then b.ptRoot
  else if 0x3480 ≤ off ∧ off < 0x3480 + 8 * 20 ∧ off % 8 = 0 then Sparse.read 0 b.winCarry ((off - 0x3480) / 8)
  else 0

/-- Registers of the partition, greenware and fault blocks (R452). -/
def partReg (x : Part) (off : Nat) : Nat :=
  if off = 0x0400 then x.frames.toNat + x.share * 2 ^ 20 + x.readFrom.toNat * 2 ^ 28
  else if off = 0x0418 then x.acctNoSlot
  else if off = 0x0430 then x.poolFree
  else if off = 0x0438 then x.deferrals
  else if off = 0x0440 then x.rangeTrips
  else if off = 0x0448 then x.mismatches + x.abandoned * 2 ^ 32
  else if off = 0x0450 then x.lastTrip.toNat
  else if off = 0x0458 then x.shadowLast.toNat
  else if off = 0x0460 then x.testRod.toNat
  else if off = 0x0468 then x.testState + bit x.testRefused * 4
  else if off = 0x0470 then x.rodCe
  else if off = 0x0478 then x.capStatus.toNat
  else if off = 0x0500 then x.bank.word
  else if off = 0x0588 then x.faults.ringBase.toNat * 2 ^ 12
  else if off = 0x0590 then x.faults.ringHead
  else if off = 0x0598 then x.faults.statusWord
  else if 0x0800 ≤ off ∧ off < 0x1000 ∧ off % 8 = 0 then (Sparse.read 0#32 x.fences ((off - 0x800) / 8)).toNat
  else bankReg x.live off

/-- RING_STATUS (R289). -/
def Ring.statusWord (r : Ring) : Nat :=
  r.state + bit r.badTail * 2 ^ 3 + r.fetchSeq.toNat * 2 ^ 8 + r.inflight * 2 ^ 24 + r.awaits * 2 ^ 48

/-- Registers of a ring (R455). -/
def ringReg (r : Ring) (off : Nat) : Nat :=
  if off = 0x00 then r.descBase.toNat * 2 ^ 12
  else if off = 0x08 then r.cplBase.toNat * 2 ^ 12
  else if off = 0x10 then r.dbAddr.toNat * 2 ^ 6
  else if off = 0x18 then bit r.enable + r.log2.toNat * 16
  else if off = 0x20 then r.statusWord
  else if off = 0x28 then r.cplPos + bit (!r.held.isEmpty) * 2 ^ 16
  else 0

/-- Registers of the tally block of partition `n` (R456). -/
def tallyReg (s : State) (n off : Nat) : Nat :=
  if 0x2000 ≤ off ∧ off < 0x2A00 then
    let f := (off - 0x2000) / 0x80; let a := (off - 0x2000) % 0x80 / 8
    if a < 10 ∧ off % 8 = 0 then (s.part n).allocOf f a else 0
  else if 0x2A00 ≤ off ∧ off < 0x3400 then
    let f := (off - 0x2A00) / 0x80; let a := (off - 0x2A00) % 0x80 / 8
    if a < 10 ∧ off % 8 = 0 then s.resvUnits n f a else 0
  else if 0x3400 ≤ off ∧ off < 0x3400 + 80 ∧ off % 8 = 0 then Sparse.read 0 (s.part n).holds ((off - 0x3400) / 8)
  else bankReg (s.part n).live off

/-- CONE_STATUS_f (R366). -/
def Cone.statusWord (c : Cone) : Nat :=
  c.target + c.rate * 2 ^ 10 + c.mv * 2 ^ 20 + bit c.overridden * 2 ^ 30

/-- A mask of the numbers of a list. -/
def listMask (l : List Nat) : Nat := l.foldl (fun n c => n ||| 2 ^ c) 0

/-- HBM_STATUS_f (R458). -/
def FrameMem.hbmWord (m : FrameMem) : Nat :=
  m.band + bit m.lost * 4 + m.pch * 16 + listMask m.chOut * 2 ^ 16

/-- LPDDR_STATUS_f (R458). -/
def FrameMem.lpddrWord (m : FrameMem) : Nat := listMask m.pkgOut + m.pkg * 16

/-- A frame counter at its offset in the frame record (R459). -/
def Counters.at (c : Counters) (off : Nat) : Nat :=
  if off = 0x40 then c.memCe else if off = 0x48 then c.memUe else if off = 0x50 then c.poisonReads
  else if off = 0x58 then c.promoDrops else if off = 0x60 then c.badOps else if off = 0x68 then c.carrySat
  else if off = 0x70 then c.coldDrops else if off = 0x78 then c.evtSat else if off = 0x80 then c.pinErrs
  else if off = 0x88 then c.vecAddr else if off = 0x90 then c.pairHeld else if off = 0x98 then c.winRejects
  else if off = 0xE0 then c.promoNoslot else 0

/-- LINK_STATUS_f_k (R387). -/
def Link.statusWord (l : Link) : Nat :=
  l.state + l.peer.moduleId.toNat * 2 ^ 8 + l.peer.frame.toNat * 2 ^ 24 + l.peer.link.toNat * 2 ^ 29
    + l.replays * 2 ^ 32 + l.retrains * 2 ^ 48

/-- Registers of a frame record that only the frame's own partition shows, or SMBus (R366, R447). -/
def ownedFrameReg (s : State) (f off : Nat) : Nat :=
  let x := s.frame f
  if off = 0x00 then (if x.kiln.absent then x.kiln.rods else s.freeRods f) + x.shardGib * 2 ^ 16
  else if off = 0x08 then x.cone.cap
  else if off = 0x10 then x.cone.speed
  else if off = 0x18 then x.cone.statusWord
  else if off = 0x20 then x.cone.excess
  else 0

/-- The other registers of a frame record (R457). -/
def frameReg (s : State) (f off : Nat) : Nat :=
  let x := s.frame f
  if off = 0x28 then x.mem.hbmWord
  else if off = 0x30 then x.mem.lpddrWord
  else if off = 0x38 then x.mem.mapState + sat32 (s.restoringLeft f) * 2 ^ 32
  else if 0xA0 ≤ off ∧ off < 0xE0 ∧ off % 16 = 0 then (x.link ((off - 0xA0) / 16)).statusWord
  else if 0xA8 ≤ off ∧ off < 0xE0 ∧ off % 16 = 8 then
    let l := x.link ((off - 0xA8) / 16)
    l.fecCorr + l.crcErrs * 2 ^ 32
  else x.counters.at off

/-- FW_STATUS_f (R416). -/
def FwShown.word (w : FwShown) : Nat :=
  w.aState + w.bState * 4 + bit w.runningB * 16 + bit w.preferredB * 32 + bit w.absent * 64 + w.lastErr * 2 ^ 8
    + w.svn.toNat * 2 ^ 16 + w.ifLevel.toNat * 2 ^ 48

/-- KILN_MASTER (R460). -/
def Master.word (m : Master) : Nat := (if m.none then 0 else m.frame) + bit m.none * 32 + bit m.moving * 64

/-- Registers of the kiln block (R460). -/
def kilnReg (s : State) (off : Nat) : Nat :=
  if 0x5800 ≤ off ∧ off < 0x5800 + 160 ∧ off % 8 = 0 then (s.frame ((off - 0x5800) / 8)).kiln.shown.word
  else if off = 0x58A0 then s.master.word
  else 0

/-- RESET_CAUSE (R416). -/
def KeepAlive.causeWord (k : KeepAlive) : Nat :=
  bit k.por + bit k.resetPin * 2 + k.perst.toNat * 4 + bit k.kilnWdt * 2 ^ 6 + bit k.swFull * 2 ^ 7 + bit k.frame * 2 ^ 8
    + bit k.thermal * 2 ^ 9 + bit k.twinFence * 2 ^ 10 + bit k.clkLoss * 2 ^ 11 + bit k.kaLost * 2 ^ 12

/-- MIRROR_STATE (R387). -/
def Twin.mirrorWord (t : Twin) : Nat := (List.range 20).foldl (fun n f => n + t.mirrorOf f * 4 ^ f) 0

/-- SAGGAR_STATUS of a bay, WIRED included (R438). -/
def BayState.statusWord (b : BayState) : Nat :=
  b.state + 8 + bit b.lifeWarn * 16 + b.reason * 32 + min 1000 (b.life * 1000 / ratedLife) * 256

/-- TWIN_STATUS (R387). -/
def Twin.statusWord (t : Twin) : Nat :=
  t.role + bit t.statusFar * 4 + bit (decide (t.peerHot ≠ 0)) * 8 + t.epoch.toNat * 2 ^ 16 + t.peerId.toNat * 2 ^ 32

/-- TWIN_CFG (R387). -/
def Twin.cfgWord (t : Twin) : Nat := t.peer.toNat + bit t.far * 2 ^ 16 + bit t.paired * 2 ^ 17

/-- CAL_STATUS (R443). -/
def State.calWord (s : State) : Nat := bit s.calReplaced + s.calCorrupt.toNat * 4 + s.calGeneration.toNat * 2 ^ 32

/-- Registers of the module block at their live offsets (R461). -/
def moduleReg (s : State) (off : Nat) : Nat :=
  if off = 0x6000 then s.ka.causeWord
  else if off = 0x6008 then s.ka.countModule + s.ka.countFrame * 2 ^ 32
  else if off = 0x6010 then s.ka.wdtFrames.toNat + s.ka.fenceFrames.toNat * 2 ^ 32
  else if off = 0x6018 then bit s.ka.bootHold
  else if off = 0x6020 then s.seqr.protMinSvn.toNat
  else if off = 0x6028 then s.seqr.protKeyDisable.toNat
  else if off = 0x6030 then s.calWord
  else if off = 0x6040 then s.fabric.moduleId.toNat + bit s.fabric.idSet * 2 ^ 16
  else if off = 0x6048 then s.twin.cfgWord
  else if off = 0x6050 then bit s.twin.band2
  else if off = 0x6058 then s.fabric.timeoutUs
  else if off = 0x6060 then s.twin.statusWord
  else if off = 0x6068 then s.twin.mirrorWord
  else if off = 0x6070 then s.fabric.noRoute + s.fabric.timeouts * 2 ^ 32
  else if off = 0x6078 then s.twin.fwdLost
  else if off = 0x6080 then s.twin.repairs
  else if off = 0x6088 then s.journalState + s.gapFrames.toNat * 16
  else if off = 0x6090 then s.ckptLate.toNat
  else if off = 0x6098 then
    (if s.bayA.state = 4 ∨ s.bayA.state = 5 then s.bayA.freeExtents else 0)
      + (if s.bayB.state = 4 ∨ s.bayB.state = 5 then s.bayB.freeExtents else 0) * 2 ^ 32
  else if off = 0x60A0 then s.tierfUnreadable
  else if off = 0x60A8 then s.mbLive.sweepSeconds
  else if off = 0x60B0 then s.mbLive.stageMib
  else if off = 0x60B8 then s.mbLive.ckptGib
  else if off = 0x60C0 then s.mbLive.scrubHours
  else if off = 0x60C8 then s.mb.word
  else if off = 0x6100 then s.bayA.statusWord
  else if off = 0x6118 then s.bayB.statusWord
  else if off = 0x6120 then s.bayA.written / 1000000000
  else if off = 0x6138 then s.bayB.written / 1000000000
  else if off = 0x6140 then (s.bayA.serial.toNat % 2 ^ 64)
  else if off = 0x6158 then (s.bayB.serial.toNat % 2 ^ 64)
  else if off = 0x6160 then bit s.bayRefused * 32
  else 0

/-- The module bank's staged registers (R461), at their live offsets. -/
def moduleStagedReg (m : ModuleRegs) (off : Nat) : Nat :=
  if off = 0x6040 then m.idReg.toNat
  else if off = 0x6048 then m.twinCfg.toNat
  else if off = 0x6050 then m.twinPolicy.toNat
  else if off = 0x6058 then m.fabricUs
  else if off = 0x60A8 then m.sweepSeconds
  else if off = 0x60B0 then m.stageMib
  else if off = 0x60B8 then m.ckptGib
  else if off = 0x60C0 then m.scrubHours
  else 0

/-- A register as port `n`'s set-up BAR shows it (R444, R447, R449). -/
def readBar (s : State) (n off : Nat) : Nat :=
  if off < 0x0400 then portReg (s.port n) (s.part n).live off
  else if off < 0x1000 then (if s.partExists n then partReg (s.part n) off else 0)
  else if off < 0x2000 then ringReg (s.ring n ((off - 0x1000) / 64)) (off % 64)
  else if off < 0x4000 then (if s.partExists n then tallyReg s n off else 0)
  else if off < 0x5400 then
    let f := (off - 0x4000) / 0x100
    if off % 0x100 < 0x28 then (if inMask (s.part n).frames f then ownedFrameReg s f (off % 0x100) else 0)
    else frameReg s f (off % 0x100)
  else if off < 0x6000 then kilnReg s off
  else if off < 0x7000 then moduleReg s off
  else if 0x8000 ≤ off ∧ off < 0xF000 then (if s.partExists n then bankReg (s.part n).staged (off - 0x8000) else 0)
  else 0

/-- A read of `size` bytes of port `n`'s set-up BAR: 8 B, or half of a register; any other size or alignment reads 0 (R445). -/
def barRead (s : State) (n off size : Nat) : Nat :=
  if (size = 4 ∨ size = 8) ∧ off % size = 0 then readBar s n (off / 8 * 8) / 256 ^ (off % 8) % 256 ^ size else 0

/-- A register as REG_READ over SMBus reaches it (R475); none where the command does not reach the offset. -/
def readSmbus (s : State) (port off : Nat) : Option Nat :=
  if off % 8 ≠ 0 then none
  else if off < 0x0400 then (if port < 4 then some (portReg (s.port port) (s.part port).live off) else none)
  else if 0x4000 ≤ off ∧ off < 0x5400 then
    let f := (off - 0x4000) / 0x100
    if off % 0x100 < 0x28 then some (ownedFrameReg s f (off % 0x100)) else some (frameReg s f (off % 0x100))
  else if 0x5400 ≤ off ∧ off < 0x6000 then some (kilnReg s off)
  else if 0x6000 ≤ off ∧ off < 0x7000 then some (moduleReg s off)
  else if 0xE000 ≤ off ∧ off < 0xF000 then some (moduleStagedReg s.mbStaged (off - 0x8000))
  else none

end Sys2Proof.Machine
end

