-- ==== Sys2Proof/Machine/Smbus.lean ====
section
/-! DEFINITION. SMBus management: STATUS, REG_READ, REG_WRITE, the module bank, resets, firmware, calibration and the alert response
(R345, R349, R391, R400, R402 to R407, R411 to R413, R438 to R443, R461 to R465, R474 to R477). -/

namespace Sys2Proof.Machine

/-! ## Reads -/

/-- STATUS: the result, KILN_MASTER and the alert sources are read (R475). -/
def execStatus (s : State) : Outcome :=
  within true (s.when s.seqr.kaUp fun s => 
    { s with smbus := { s.smbus with masterShown := BitVec.ofNat 64 s.master.word, sourcesShown := s.smbus.sources } })

/-- Registers that the keep-alive domain reads out without a kiln master (R476). -/
def keepAliveReads (off : Nat) : Bool :=
  [0x6000, 0x6008, 0x6010, 0x6018, 0x6030].contains off || decide (0x5800 ≤ off ∧ off < 0x58A0 ∧ off % 8 = 0)

/-- REG_READ: `data` holds what was read; an offset that the command does not reach reads 0. -/
def execRegRead (port offset : Nat) (s : State) : Outcome :=
  within true (s.when s.seqr.kaUp fun s =>
    if !s.hasMaster ∧ !keepAliveReads offset then (if s.smbus.result = 1 then s else s.smbusDone 4)
    else { s with smbus := { s.smbus with data := BitVec.ofNat 64 ((readSmbus s port offset).getD 0) } })

/-! ## REG_WRITE -/

/-- Registers of the keep-alive domain that are written without a kiln master (R476), and the protection set during the boot hold
(R400; log 67). -/
def State.keepAliveWrites (s : State) (off : Nat) : Bool :=
  [0x6000, 0x6010, 0x6018].contains off || (decide (s.seqr.phase = .step3) && [0x6020, 0x6028].contains off)

/-- RESET_CAUSE, W1C. -/
def KeepAlive.clearCause (k : KeepAlive) (w : Word64) : KeepAlive :=
  { k with
    por := k.por && !w.getLsbD 0, resetPin := k.resetPin && !w.getLsbD 1, perst := k.perst &&& ~~~(w.extractLsb' 2 4),
    kilnWdt := k.kilnWdt && !w.getLsbD 6, swFull := k.swFull && !w.getLsbD 7, frame := k.frame && !w.getLsbD 8,
    thermal := k.thermal && !w.getLsbD 9, twinFence := k.twinFence && !w.getLsbD 10, clkLoss := k.clkLoss && !w.getLsbD 11,
    kaLost := k.kaLost && !w.getLsbD 12 }

/-- RESET_CAUSE to PROT_KEY_DISABLE. The RWL fields only tighten, and ignore writes after the protection commit (R5, R400). -/
def State.writeKeepAlive (s : State) (off : Nat) (w : Word64) : State :=
  if off = 0x6000 then { s with ka := s.ka.clearCause w }
  else if off = 0x6010 then { s with ka := { s.ka with
      wdtFrames := s.ka.wdtFrames &&& ~~~(w.setWidth 20), fenceFrames := s.ka.fenceFrames &&& ~~~(w.extractLsb' 32 20) } }
  else if off = 0x6018 then { s with ka := { s.ka with bootHold := w.getLsbD 0 } }
  else if s.seqr.protLocked then s
  else if off = 0x6020 then { s with seqr := { s.seqr with
      protMinSvn := if s.seqr.protMinSvn < w.setWidth 32 then w.setWidth 32 else s.seqr.protMinSvn } }
  else { s with seqr := { s.seqr with protKeyDisable := s.seqr.protKeyDisable ||| w.setWidth 4 } }

/-- The module bank after an accepted staged write: ENTRY counts the entries received (R465). -/
def State.touchModule (s : State) : State :=
  { s with mb := { s.mb with state := 1, reason := 0, entry := s.mbEntries.length } }

/-- A staged write of the module bank; ignored, with LATE_WRITE, during CHECKING and COMMITTING (R411). -/
def State.stageModule (s : State) (g : State → State) : State :=
  if s.mb.writable then (g s).touchModule else { s with mb := { s.mb with lateWrite := true } }

/-- Registers of the module bank (R461). -/
def moduleOffset (off : Nat) : Bool := [0x6040, 0x6048, 0x6050, 0x6058, 0x60A8, 0x60B0, 0x60B8, 0x60C0].contains off

/-- The staged copy of a module bank register takes a value. -/
def ModuleRegs.put (m : ModuleRegs) (off : Nat) (w : Word64) : ModuleRegs :=
  if off = 0x6040 then { m with idReg := w &&& 0x1FFFF }
  else if off = 0x6048 then { m with twinCfg := w &&& 0x3FFFF }
  else if off = 0x6050 then { m with twinPolicy := w &&& 1 }
  else if off = 0x6058 then { m with fabricUs := bits w.toNat 15 0 }
  else if off = 0x60A8 then { m with sweepSeconds := bits w.toNat 16 0 }
  else if off = 0x60B0 then { m with stageMib := bits w.toNat 15 0 }
  else if off = 0x60B8 then { m with ckptGib := bits w.toNat 6 0 }
  else { m with scrubHours := bits w.toNat 7 0 }

/-- A module bank register at its live or staged address. -/
def State.writeModuleReg (s : State) (off : Nat) (w : Word64) : State :=
  s.stageModule fun s => { s with mbStaged := s.mbStaged.put off w }

/-- SAGGAR_CTRL (R435, R438): bay A before bay B. -/
def State.writeSaggarCtrl (s : State) (w : Word64) : State :=
  let force := w.getLsbD 2
  let t : State := { s with bayRefused := s.bayRefused && !w.getLsbD 5 }
  let t := t.when (w.getLsbD 0) fun t => t.eject .a force
  let t := t.when (w.getLsbD 1) fun t => t.eject .b force
  (t.when (w.getLsbD 3) fun t => t.adopt .a).when (w.getLsbD 4) fun t => t.adopt .b

/-- FRAME_CAP_f and SPEED_f over SMBus: the cap only of a frame in no partition (R364, R475). -/
def State.writeFrameSmbus (s : State) (f off : Nat) (w : Word64) : State :=
  if off = 0x08 then
    let v := bits w.toNat 6 0
    if (s.frameOwner f).isSome ∨ v < 20 ∨ 95 < v then s.smbusDone 2 else (s.putCap f v).smbusDone 0
  else if off = 0x10 then
    let v := bits w.toNat 9 0
    if v < 700 ∨ 1000 < v then s.smbusDone 2 else (s.putSpeed f v).smbusDone 0
  else s.smbusDone 0

/-- A write over SMBus: STATUS 2 at an offset that SMBus does not reach or that is not aligned (R445, R475; log 67). -/
def State.writeSmbus (s : State) (off : Nat) (w : Word64) : State :=
  if off % 8 ≠ 0 then s.smbusDone 2
  else if moduleOffset off then (s.writeModuleReg off w).smbusDone 0
  else if 0xE000 ≤ off ∧ off < 0xF000 then
    (if moduleOffset (off - 0x8000) then (s.writeModuleReg (off - 0x8000) w).smbusDone 0 else s.smbusDone 0)
  else if 0x4000 ≤ off ∧ off < 0x5400 then s.writeFrameSmbus ((off - 0x4000) / 0x100) (off % 0x100) w
  else if [0x6000, 0x6010, 0x6018, 0x6020, 0x6028].contains off then (s.writeKeepAlive off w).smbusDone 0
  else if off = 0x60C8 then ({ s with mb := { s.mb with lateWrite := s.mb.lateWrite && !w.getLsbD 3 } } : State).smbusDone 0
  else if off = 0x6160 then (s.writeSaggarCtrl w).smbusDone 0
  else if 0x4000 ≤ off ∧ off < 0x7000 then s.smbusDone 0
  else s.smbusDone 2

/-- REG_WRITE. -/
def execRegWrite (offset : Nat) (value : Word64) (pec : Bool) (s : State) : Outcome :=
  within true (s.smbusWrite pec (s.keepAliveWrites offset) fun s => s.writeSmbus offset value)

/-! ## The module bank (R345, R349, R411 to R413, R465) -/

/-- Bytes of the staged layout record: those that differ from the layout in force. -/
def State.putLayout (s : State) (off : Nat) (data : List Byte) : State :=
  s.forEach (List.zip (List.range data.length) data) fun t p =>
    let i := off + p.1
    let new := if p.2 = t.layoutByte i then Sparse.erase t.mbStaged.layout i else Sparse.insert t.mbStaged.layout i p.2
    { t with mbStaged := { t.mbStaged with layout := new } }

/-- MB_LAYOUT: a transaction with a byte past 0xC9F stages nothing. -/
def execMbLayout (offset : Nat) (data : List Byte) (pec : Bool) (s : State) : Outcome :=
  within true (s.smbusWrite pec false fun s =>
    if 252 < data.length ∨ 0xCA0 < offset + data.length then s.smbusDone 2
    else (s.stageModule fun s => s.putLayout offset data).smbusDone 0)

/-- MB_ENTRY: one change list entry of 80 B (R410). -/
def execMbEntry (entry : List Byte) (pec : Bool) (s : State) : Outcome :=
  within true (s.smbusWrite pec false fun s =>
    if entry.length ≠ 80 then s.smbusDone 2
    else (s.stageModule fun s => { s with mbEntries := s.mbEntries ++ [gwEntry entry] }).smbusDone 0)

/-- MB_CHECK (R412, R465). -/
def execMbCheck (pec : Bool) (s : State) : Outcome :=
  within true (s.smbusWrite pec false fun s => s.masterSmbus false)

/-- MB_COMMIT (R413, R465). -/
def execMbCommit (pec : Bool) (s : State) : Outcome :=
  within true (s.smbusWrite pec false fun s => s.masterSmbus true)

/-- MB_DISCARD: the staged settings return to those in force, and the bank is EMPTY. -/
def execMbDiscard (pec : Bool) (s : State) : Outcome :=
  within true (s.smbusWrite pec false fun s =>
    if !s.mb.writable then s.smbusDone 0
    else ({ s with
      mbStaged := { s.mbLive with layout := [] }, mbEntries := [],
      mb := { BankState.empty with lateWrite := s.mb.lateWrite } } : State).smbusDone 0)

/-! ## Resets and the boot hold (R391, R400) -/

/-- MODULE_RESET: the key is 0xA5C3. -/
def execModuleReset (key : BitVec 16) (frames : List BootFrame) (pec : Bool) (s : State) : Outcome :=
  within true (s.smbusWrite pec true fun s =>
    if key ≠ 0xA5C3 then s.smbusDone 2
    else (s.smbusDone 0).when s.sampled fun s => s.moduleScope (fun k => { k with swFull := true }) frames)

/-- FRAME_RESET: the kiln master fences the frame and brings it back. -/
def execFrameReset (frame acked : Nat) (boot : BootFrame) (pec : Bool) (s : State) : Outcome :=
  within true (s.smbusWrite pec false fun s =>
    if !frameOk frame then s.smbusDone 2 else (s.smbusDone 0).fenceAndReset frame acked boot)

/-- PROT_COMMIT: ends the boot hold; refused where no boot waits at step 3, or a source is asserted (log 67). -/
def execProtCommit (frames : List BootFrame) (pec : Bool) (s : State) : Outcome :=
  within true (s.smbusWrite pec true fun s =>
    if s.seqr.phase ≠ .step3 ∨ s.sourceHeld then s.smbusDone 2 else (s.smbusDone 0).bootOn frames)

/-! ## Firmware (R402 to R407) -/

/-- FW_STATUS of a kiln that is there shows its slots. -/
def Kiln.refresh (k : Kiln) (err : Nat) : Kiln := if k.absent then k else k.show err

/-- One image goes into the non-running slot of a kiln: where there is a kiln master it is checked and not preferred, otherwise
it is TRIAL and preferred. -/
def State.stageKiln (s : State) (f : Nat) (img : FwImage) : State :=
  s.modKiln f fun k =>
    let b := !k.runningB
    if s.hasMaster then
      let v := (⟨1, img.svn, img.ifLevel, img.version, img.form⟩ : FwSlot).verdict s.fwRules img.check
      ({ (k.setSlot b ⟨if v = 0 then 1 else 3, img.svn, img.ifLevel, img.version, img.form⟩) with preferB := !b } : Kiln).refresh v
    else ({ (k.setSlot b ⟨2, img.svn, img.ifLevel, img.version, img.form⟩) with preferB := b } : Kiln).refresh k.shown.lastErr

/-- FW_STAGE. -/
def execFwStage (mask : BitVec 20) (img : FwImage) (pec : Bool) (s : State) : Outcome :=
  within true (s.smbusWrite pec true fun s =>
    ((s.forEach (maskFrames mask) fun t f => t.stageKiln f img).smbusDone 0).alert 4)

/-- Why a kiln cannot be activated, as LAST_ERR: no VALID non-running slot, or an IF_LEVEL other than the master's. -/
def State.activateErr (s : State) (f : Nat) : Nat :=
  let k := (s.frame f).kiln
  let x := k.slot (!k.runningB)
  let m := (s.frame s.master.frame).kiln
  if x.state ≠ 1 then 7 else if x.ifLevel ≠ (m.slot m.runningB).ifLevel then 6 else 0

/-- FW_ACTIVATE: refused whole, or the kilns restart one at a time, the master last; STATUS is busy until the last is back. -/
def execFwActivate (mask : BitVec 20) (pec : Bool) (s : State) : Outcome :=
  within true (s.smbusWrite pec false fun s =>
    let named := maskFrames mask
    let bad := named.filter fun f => decide (s.activateErr f ≠ 0)
    if bad ≠ [] then
      (s.forEach bad fun t f => t.modKiln f fun k => { k with shown := { k.shown with lastErr := s.activateErr f } }).smbusDone 2
    else
      let order := (named.filter fun f => decide (f ≠ s.master.frame)) ++ named.filter fun f => decide (f = s.master.frame)
      (s.smbusDone 1).activateNext order)

/-- FW_PREFER: the non-running slot of each named kiln is preferred. -/
def execFwPrefer (mask : BitVec 20) (pec : Bool) (s : State) : Outcome :=
  within true (s.smbusWrite pec false fun s =>
    (s.forEach (maskFrames mask) fun t f => t.modKiln f fun k =>
      ({ k with preferB := !k.runningB } : Kiln).refresh k.shown.lastErr).smbusDone 0)

/-! ## Calibration (R439 to R443) -/

/-- Bytes of a calibration set. -/
def calBytes : Nat := 41024

/-- Certified rates of a record. -/
def calRates (r : List Byte) : List Nat := (List.range 29).map fun i => fieldAt r (8 * i) 2

/-- Rated powers of a record, in 0.1 W. -/
def calPowers (r : List Byte) : List Nat := (List.range 29).map fun i => fieldAt r (8 * i + 2) 2

/-- Rates never fall as voltage rises. -/
def rising : List Nat → Bool
  | a :: b :: l => decide (a ≤ b) && rising (b :: l)
  | _ => true

/-- A frame record that CAL_COMMIT takes: its CRC over its other bytes, its rates rising to 700 or more (log 68). -/
def calRecordOk (r : List Byte) : Bool :=
  decide (crc32 (r.take 0x7FC) = fieldAt r 0x7FC 4) && rising (calRates r) && decide (700 ≤ (calRates r).getLastD 0)

/-- A set that CAL_COMMIT takes (R440). -/
def calOk (set : List Byte) (generation : Word32) : Bool :=
  decide (set.length = calBytes ∧ fieldAt set 0 4 = 0x4C414343 ∧ fieldAt set 4 2 = 1 ∧ fieldAt set 6 1 = 1 ∧
    fieldAt set 8 4 = (generation + 1).toNat ∧
    crc32 (set.take 0x3C ++ leBytes 4 0 ++ set.drop 0x40) = fieldAt set 0x3C 4) &&
  (List.range 20).all fun f => calRecordOk (calRecord set f)

/-- CAL_WRITE: the next bytes of a set; after a whole set a new one begins (log 68). -/
def execCalWrite (data : List Byte) (pec : Bool) (s : State) : Outcome :=
  within true (s.smbusWrite pec false fun s =>
    let old := if calBytes ≤ s.smbus.calStaged.length then [] else s.smbus.calStaged
    ({ s with smbus := { s.smbus with calStaged := old ++ data } } : State).smbusDone 0)

/-- A set in flash: each frame's cone table takes effect at its next quiescent point, with a re-check (R441). -/
def State.takeCal (s : State) (set : List Byte) : State :=
  let t := s.forEach (List.range 20) fun t f => t.modFrame f fun x => { x with cone := { x.cone with
    nextRate := some (calRates (calRecord set f)), nextPower := some (calPowers (calRecord set f)) } }
  let t : State := { t with calSet := set, calReplaced := true, calGeneration := t.calGeneration + 1 }
  (t.requestAction (BitVec.ofNat 20 (2 ^ 20 - 1)) .calibration).askRecheck

/-- CAL_COMMIT: refused where the staged set breaks a rule. -/
def execCalCommit (pec : Bool) (s : State) : Outcome :=
  within true (s.smbusWrite pec false fun s =>
    let set := s.smbus.calStaged
    let t : State := { s with smbus := { s.smbus with calStaged := [] } }
    if calOk set s.calGeneration then (t.takeCal set).smbusDone 0 else t.smbusDone 2)

/-! ## The alert (R477) -/

/-- ALERT_RESPONSE. -/
def execAlertResponse (s : State) : Outcome :=
  within true (s.when s.seqr.kaUp fun s => { s with smbus := { s.smbus with alert := false, sources := 0 } })

end Sys2Proof.Machine
end

