-- ==== Sys2Proof/Machine/Dispatch.lean ====
section
/-! DEFINITION. One arm per command: the meaning of each (spec/opcode_table.json). -/

namespace Sys2Proof.Machine

/-- The effect of a command. -/
def exec (i : Instr) (s : State) : Host.Outcome State Fault Refusal :=
  match i with
  | .firingAdmit c img => Sys2Proof.Machine.execFiringAdmit c img s
  | .firingRun c => Sys2Proof.Machine.execFiringRun c s
  | .firingSwap c img => Sys2Proof.Machine.execFiringSwap c img s
  | .firingWithdraw c => Sys2Proof.Machine.execFiringWithdraw c s
  | .firingPreempt c => Sys2Proof.Machine.execFiringPreempt c s
  | .firingResume c => Sys2Proof.Machine.execFiringResume c s
  | .carrySubmit c hostData => Sys2Proof.Machine.execCarrySubmit c hostData s
  | .rowWrite c hostData => Sys2Proof.Machine.execRowWrite c hostData s
  | .rowSwitch c => Sys2Proof.Machine.execRowSwitch c s
  | .memPrefetch c targets => Sys2Proof.Machine.execMemPrefetch c targets s
  | .memAdvise c => Sys2Proof.Machine.execMemAdvise c s
  | .tlbInvalidate c => Sys2Proof.Machine.execTlbInvalidate c s
  | .faultResolve c => Sys2Proof.Machine.execFaultResolve c s
  | .faultAbort c => Sys2Proof.Machine.execFaultAbort c s
  | .faultQuery c => Sys2Proof.Machine.execFaultQuery c s
  | .histRead c => Sys2Proof.Machine.execHistRead c s
  | .check c twinPasses => Sys2Proof.Machine.execCheck c s twinPasses
  | .commit c twinApplied => Sys2Proof.Machine.execCommit c s twinApplied
  | .twinHandover c => Sys2Proof.Machine.execTwinHandover c s
  | .journalReplay c => Sys2Proof.Machine.execJournalReplay c s
  | .fenceSignal c => Sys2Proof.Machine.execFenceSignal c s
  | .nop c => Sys2Proof.Machine.execNop c s
  | .doorbellSnoop port ring => Sys2Proof.Machine.execDoorbellSnoop port ring s
  | .nudge port offset size => Sys2Proof.Machine.execNudge port offset size s
  | .doorbellRead port ring word => Sys2Proof.Machine.execDoorbellRead port ring word s
  | .descFetch port ring host => Sys2Proof.Machine.execDescFetch port ring host s
  | .refetchTimer port ring => Sys2Proof.Machine.execRefetchTimer port ring s
  | .descAccept port ring => Sys2Proof.Machine.execDescAccept port ring s
  | .fenceSatisfied c => Sys2Proof.Machine.execFenceSatisfied c s
  | .paramBlockRead c => Sys2Proof.Machine.execParamBlockRead c s
  | .chainStart port ring => Sys2Proof.Machine.execChainStart port ring s
  | .commandTimeout c => Sys2Proof.Machine.execCommandTimeout c s
  | .completionSpaceRecheck port ring word => Sys2Proof.Machine.execCompletionSpaceRecheck port ring word s
  | .ringEnable port ring value => Sys2Proof.Machine.execRingEnable port ring value s
  | .ringDisable port ring value => Sys2Proof.Machine.execRingDisable port ring value s
  | .ringDrainEnd port ring => Sys2Proof.Machine.execRingDrainEnd port ring s
  | .stepBoundary handle => Sys2Proof.Machine.execStepBoundary handle s
  | .stepEnd handle => Sys2Proof.Machine.execStepEnd handle s
  | .frameQuiescent frame => Sys2Proof.Machine.execFrameQuiescent frame s
  | .forwardPassEnd handle => Sys2Proof.Machine.execForwardPassEnd handle s
  | .tiePassStart handle => Sys2Proof.Machine.execTiePassStart handle s
  | .gradRuleEval handle rule => Sys2Proof.Machine.execGradRuleEval handle rule s
  | .ctrlNop b c => Sys2Proof.Machine.execCtrlNop b c s
  | .ctrlAdd b c rd rs rt => Sys2Proof.Machine.execCtrlAdd b c rd rs rt s
  | .addi b c rd rs imm => Sys2Proof.Machine.execAddi b c rd rs imm s
  | .sub b c rd rs rt => Sys2Proof.Machine.execSub b c rd rs rt s
  | .and b c rd rs rt => Sys2Proof.Machine.execAnd b c rd rs rt s
  | .or b c rd rs rt => Sys2Proof.Machine.execOr b c rd rs rt s
  | .xor b c rd rs rt => Sys2Proof.Machine.execXor b c rd rs rt s
  | .shl b c rd rs imm => Sys2Proof.Machine.execShl b c rd rs imm s
  | .shr b c rd rs imm => Sys2Proof.Machine.execShr b c rd rs imm s
  | .li b c rd imm => Sys2Proof.Machine.execLi b c rd imm s
  | .lih b c rd imm => Sys2Proof.Machine.execLih b c rd imm s
  | .lds b c rd rs imm => Sys2Proof.Machine.execLds b c rd rs imm s
  | .beq b c rs rt imm => Sys2Proof.Machine.execBeq b c rs rt imm s
  | .bne b c rs rt imm => Sys2Proof.Machine.execBne b c rs rt imm s
  | .bltu b c rs rt imm => Sys2Proof.Machine.execBltu b c rs rt imm s
  | .loop b c imm => Sys2Proof.Machine.execLoop b c imm s
  | .rest b c => Sys2Proof.Machine.execRest b c s
  | .endStep b c => Sys2Proof.Machine.execEndStep b c s
  | .wait b c counter value scope => Sys2Proof.Machine.execWait b c counter value scope s
  | .signal b c counter target scope => Sys2Proof.Machine.execSignal b c counter target scope s
  | .mma b c m => Sys2Proof.Machine.execMma b c m s
  | .mmaComplete b => Sys2Proof.Machine.execMmaComplete b s
  | .fillerExpire b array => Sys2Proof.Machine.execFillerExpire b array s
  | .mv b c m => Sys2Proof.Machine.execMv b c m s
  | .mvComplete r channel hostData found => Sys2Proof.Machine.execMvComplete r channel hostData s found
  | .coilInject b c k => Sys2Proof.Machine.execCoilInject b c k s
  | .coilLand b c k => Sys2Proof.Machine.execCoilLand b c k s
  | .coilFlitAccept handle coil origin idx => Sys2Proof.Machine.execCoilFlitAccept handle coil origin idx s
  | .coilComplete b job => Sys2Proof.Machine.execCoilComplete b job s
  | .vecChainStart b c n => Sys2Proof.Machine.execVecChainStart b c n s
  | .vecComplete b => Sys2Proof.Machine.execVecComplete b s
  | .vadd b c v => Sys2Proof.Machine.execVadd b c v s
  | .vsub b c v => Sys2Proof.Machine.execVsub b c v s
  | .vmul b c v => Sys2Proof.Machine.execVmul b c v s
  | .vfma b c v => Sys2Proof.Machine.execVfma b c v s
  | .vmax b c v => Sys2Proof.Machine.execVmax b c v s
  | .vmin b c v => Sys2Proof.Machine.execVmin b c v s
  | .vabs b c v => Sys2Proof.Machine.execVabs b c v s
  | .vneg b c v => Sys2Proof.Machine.execVneg b c v s
  | .vmov b c v => Sys2Proof.Machine.execVmov b c v s
  | .vdiv b c v => Sys2Proof.Machine.execVdiv b c v s
  | .vrsqrt b c v => Sys2Proof.Machine.execVrsqrt b c v s
  | .vexp b c v => Sys2Proof.Machine.execVexp b c v s
  | .vsigm b c v => Sys2Proof.Machine.execVsigm b c v s
  | .vtanh b c v => Sys2Proof.Machine.execVtanh b c v s
  | .vgelu b c v => Sys2Proof.Machine.execVgelu b c v s
  | .vsel b c v => Sys2Proof.Machine.execVsel b c v s
  | .vcmpgt b c v => Sys2Proof.Machine.execVcmpgt b c v s
  | .vcmpge b c v => Sys2Proof.Machine.execVcmpge b c v s
  | .vcmpeq b c v => Sys2Proof.Machine.execVcmpeq b c v s
  | .vdq b c v => Sys2Proof.Machine.execVdq b c v s
  | .vdqr b c v => Sys2Proof.Machine.execVdqr b c v s
  | .vqb b c v => Sys2Proof.Machine.execVqb b c v s
  | .vrsum b c v => Sys2Proof.Machine.execVrsum b c v s
  | .vrmax b c v => Sys2Proof.Machine.execVrmax b c v s
  | .vrmin b c v => Sys2Proof.Machine.execVrmin b c v s
  | .vramax b c v => Sys2Proof.Machine.execVramax b c v s
  | .vidx b c v => Sys2Proof.Machine.execVidx b c v s
  | .vchk b c v => Sys2Proof.Machine.execVchk b c v s
  | .vhist b c v => Sys2Proof.Machine.execVhist b c v s
  | .vstat b c v => Sys2Proof.Machine.execVstat b c v s
  | .indexList frame unit l => Sys2Proof.Machine.execIndexList frame unit l s
  | .gatherPosition frame unit found => Sys2Proof.Machine.execGatherPosition frame unit s found
  | .runAheadList frame unit cid l => Sys2Proof.Machine.execRunAheadList frame unit cid l s
  | .promotion frame target fromAdvice => Sys2Proof.Machine.execPromotion frame target fromAdvice s
  | .promotionRoomTimeout frame => Sys2Proof.Machine.execPromotionRoomTimeout frame s
  | .counterDecay frame table row value => Sys2Proof.Machine.execCounterDecay frame table row value s
  | .kilnPolicyMove frame table row target => Sys2Proof.Machine.execKilnPolicyMove frame table row target s
  | .relocation frame table row tier cls slot scale => Sys2Proof.Machine.execRelocation frame table row tier cls slot scale s
  | .carryDispatch frame op src found => Sys2Proof.Machine.execCarryDispatch frame op src s found
  | .add frame unit found => Sys2Proof.Machine.execAdd frame unit s found
  | .addScaled frame unit found => Sys2Proof.Machine.execAddScaled frame unit s found
  | .journalDrain frame count => Sys2Proof.Machine.execJournalDrain frame count s
  | .journalAck bay count => Sys2Proof.Machine.execJournalAck bay count s
  | .gapRecord frame => Sys2Proof.Machine.execGapRecord frame s
  | .checkpointShard frame table shard => Sys2Proof.Machine.execCheckpointShard frame table shard s
  | .streamRecord frame r => Sys2Proof.Machine.execStreamRecord frame r s
  | .dirtyResend frame => Sys2Proof.Machine.execDirtyResend frame s
  | .mirrorSweep frame tier region => Sys2Proof.Machine.execMirrorSweep frame tier region s
  | .twinSilence => Sys2Proof.Machine.execTwinSilence s
  | .silenceSelfFence frames => Sys2Proof.Machine.execSilenceSelfFence frames s
  | .silenceFenceAssert => Sys2Proof.Machine.execSilenceFenceAssert s
  | .twinFenceIn tw4 => Sys2Proof.Machine.execTwinFenceIn s tw4
  | .twinFenceRelease frames tw4 => Sys2Proof.Machine.execTwinFenceRelease frames s tw4
  | .hello frame m frames => Sys2Proof.Machine.execHello frame m frames s
  | .streamAck frame seq => Sys2Proof.Machine.execStreamAck frame seq s
  | .pairEvent target counter => Sys2Proof.Machine.execPairEvent target counter s
  | .carryFwd frame num op => Sys2Proof.Machine.execCarryFwd frame num op s
  | .fwdAck num => Sys2Proof.Machine.execFwdAck num s
  | .digest frame tier region seq value => Sys2Proof.Machine.execDigest frame tier region seq value s
  | .burstReq frame tier burst => Sys2Proof.Machine.execBurstReq frame tier burst s
  | .mapout frame tier retired moves => Sys2Proof.Machine.execMapout frame tier retired moves s
  | .atRisk frame band => Sys2Proof.Machine.execAtRisk frame band s
  | .handover lastSeq => Sys2Proof.Machine.execHandover lastSeq s
  | .hbmTempSample frame temp => Sys2Proof.Machine.execHbmTempSample frame temp s
  | .bandAction frame => Sys2Proof.Machine.execBandAction frame s
  | .scrub frame tier burst found => Sys2Proof.Machine.execScrub frame tier burst found s
  | .mapOut frame unit moves training => Sys2Proof.Machine.execMapOut frame unit moves s training
  | .pageRestore frame tier page data side => Sys2Proof.Machine.execPageRestore frame tier page data side s
  | .pageSwitch c hostData => Sys2Proof.Machine.execPageSwitch c hostData s
  | .windowRead port offset len found => Sys2Proof.Machine.execWindowRead port offset len s found
  | .windowWrite port offset data => Sys2Proof.Machine.execWindowWrite port offset data s
  | .winBaseWrite port value => Sys2Proof.Machine.execWinBaseWrite port value s
  | .winSlideDone port => Sys2Proof.Machine.execWinSlideDone port s
  | .biasSet port page => Sys2Proof.Machine.execBiasSet port page s
  | .biasClear port page => Sys2Proof.Machine.execBiasClear port page s
  | .birsp port page => Sys2Proof.Machine.execBirsp port page s
  | .attach port value => Sys2Proof.Machine.execAttach port value s
  | .shadowHeadWrite port value => Sys2Proof.Machine.execShadowHeadWrite port value s
  | .faultRingHeadWrite port value => Sys2Proof.Machine.execFaultRingHeadWrite port value s
  | .kilnFaultResolve part faultId readable => Sys2Proof.Machine.execKilnFaultResolve part faultId readable s
  | .perst port acked => Sys2Proof.Machine.execPerst port acked s
  | .hotReset port acked => Sys2Proof.Machine.execHotReset port acked s
  | .functionLevelReset port acked => Sys2Proof.Machine.execFunctionLevelReset port acked s
  | .d3hotEntry port acked => Sys2Proof.Machine.execD3hotEntry port acked s
  | .dlDown port acked => Sys2Proof.Machine.execDlDown port acked s
  | .viral port acked => Sys2Proof.Machine.execViral port acked s
  | .linkRecovery port enter => Sys2Proof.Machine.execLinkRecovery port enter s
  | .recoveryTimeout port acked => Sys2Proof.Machine.execRecoveryTimeout port acked s
  | .hostLinkUp port cxl flit speed width => Sys2Proof.Machine.execHostLinkUp port cxl flit speed width s
  | .tallyPeriod frame avgPower => Sys2Proof.Machine.execTallyPeriod frame avgPower s
  | .quotaPoolRelease frame => Sys2Proof.Machine.execQuotaPoolRelease frame s
  | .coneSample frame rate power => Sys2Proof.Machine.execConeSample frame rate power s
  | .frameCapWrite port frame value => Sys2Proof.Machine.execFrameCapWrite port frame value s
  | .speedWrite port frame value => Sys2Proof.Machine.execSpeedWrite port frame value s
  | .acctFree port value => Sys2Proof.Machine.execAcctFree port value s
  | .rodTestStart port value => Sys2Proof.Machine.execRodTestStart port value s
  | .spareRodTest frame group phys => Sys2Proof.Machine.execSpareRodTest frame group phys s
  | .rodTestDone frame group phys pass => Sys2Proof.Machine.execRodTestDone frame group phys pass s
  | .livenessProbe r answered => Sys2Proof.Machine.execLivenessProbe r answered s
  | .rodFail r cause => Sys2Proof.Machine.execRodFail r cause s
  | .flitReceive frame link f => Sys2Proof.Machine.execFlitReceive frame link f s
  | .nak frame link ack => Sys2Proof.Machine.execNak frame link ack s
  | .linkTraining frame link lanes peer => Sys2Proof.Machine.execLinkTraining frame link lanes peer s
  | .ident frame link peer => Sys2Proof.Machine.execIdent frame link peer s
  | .linkRetrain frame link => Sys2Proof.Machine.execLinkRetrain frame link s
  | .txnWrite frame t => Sys2Proof.Machine.execTxnWrite frame t s
  | .txnRead frame t found => Sys2Proof.Machine.execTxnRead frame t s found
  | .txnResp t => Sys2Proof.Machine.execTxnResp t s
  | .txnForward frame t request => Sys2Proof.Machine.execTxnForward frame t request s
  | .fabricTimeoutExpire tid => Sys2Proof.Machine.execFabricTimeoutExpire tid s
  | .powerOn frames => Sys2Proof.Machine.execPowerOn frames s
  | .powerLoss => Sys2Proof.Machine.execPowerLoss s
  | .resetPin => Sys2Proof.Machine.execResetPin s
  | .kilnWatchdog frame third acked boot => Sys2Proof.Machine.execKilnWatchdog frame third acked boot s
  | .kilnReturn frame => Sys2Proof.Machine.execKilnReturn frame s
  | .fwConfirm frame => Sys2Proof.Machine.execFwConfirm frame s
  | .fenceAndReset frame acked boot => Sys2Proof.Machine.execFenceAndReset frame acked boot s
  | .thermalTrip cause => Sys2Proof.Machine.execThermalTrip cause s
  | .thermalTripEnd frames => Sys2Proof.Machine.execThermalTripEnd frames s
  | .clkLoss => Sys2Proof.Machine.execClkLoss s
  | .clkReturn frames => Sys2Proof.Machine.execClkReturn frames s
  | .gwDiscard port value => Sys2Proof.Machine.execGwDiscard port value s
  | .registerWrite port offset size value => Sys2Proof.Machine.execRegisterWrite port offset size value s
  | .status => Sys2Proof.Machine.execStatus s
  | .regRead port offset => Sys2Proof.Machine.execRegRead port offset s
  | .regWrite offset value pec => Sys2Proof.Machine.execRegWrite offset value pec s
  | .mbLayout offset data pec => Sys2Proof.Machine.execMbLayout offset data pec s
  | .mbEntry entry pec => Sys2Proof.Machine.execMbEntry entry pec s
  | .mbCheck pec => Sys2Proof.Machine.execMbCheck pec s
  | .mbCommit pec => Sys2Proof.Machine.execMbCommit pec s
  | .mbDiscard pec => Sys2Proof.Machine.execMbDiscard pec s
  | .moduleReset key frames pec => Sys2Proof.Machine.execModuleReset key frames pec s
  | .frameReset frame acked boot pec => Sys2Proof.Machine.execFrameReset frame acked boot pec s
  | .protCommit frames pec => Sys2Proof.Machine.execProtCommit frames pec s
  | .fwStage mask img pec => Sys2Proof.Machine.execFwStage mask img pec s
  | .fwActivate mask pec => Sys2Proof.Machine.execFwActivate mask pec s
  | .fwPrefer mask pec => Sys2Proof.Machine.execFwPrefer mask pec s
  | .calWrite data pec => Sys2Proof.Machine.execCalWrite data pec s
  | .calCommit pec => Sys2Proof.Machine.execCalCommit pec s
  | .alertResponse => Sys2Proof.Machine.execAlertResponse s
  | .eject bay force => Sys2Proof.Machine.execEject bay force s
  | .adopt bay => Sys2Proof.Machine.execAdopt bay s
  | .saggarInsert bay cart => Sys2Proof.Machine.execSaggarInsert bay cart s
  | .saggarDrainDone bay => Sys2Proof.Machine.execSaggarDrainDone bay s
  | .saggarRemove bay => Sys2Proof.Machine.execSaggarRemove bay s
  | .saggarRebuildDone bay copies => Sys2Proof.Machine.execSaggarRebuildDone bay s copies
  | .resetPinRelease frames => Sys2Proof.Machine.execResetPinRelease frames s
  | .auxValid => Sys2Proof.Machine.execAuxValid s
  | .keepAliveLoss => Sys2Proof.Machine.execKeepAliveLoss s

end Sys2Proof.Machine
end

