-- ==== Sys2Proof/WellFormed.lean ====
section
/-! DEFINITION. Well-formed commands: every unit that a command names is one the spec says exists (R7, R8, R10, R11, R110, R121,
R288, R346, R387, R444). A command that is not well formed faults (log 16). -/

namespace Sys2Proof

/-- The units of a command exist. -/
def Instr.wellFormed (i : Instr) : Bool :=
  match i with
  | .firingAdmit _ _ => true
  | .firingRun _ => true
  | .firingSwap _ _ => true
  | .firingWithdraw _ => true
  | .firingPreempt _ => true
  | .firingResume _ => true
  | .carrySubmit _ _ => true
  | .rowWrite _ _ => true
  | .rowSwitch _ => true
  | .memPrefetch _ _ => true
  | .memAdvise _ => true
  | .tlbInvalidate _ => true
  | .faultResolve _ => true
  | .faultAbort _ => true
  | .faultQuery _ => true
  | .histRead _ => true
  | .check _ _ => true
  | .commit _ _ => true
  | .twinHandover _ => true
  | .journalReplay _ => true
  | .fenceSignal _ => true
  | .nop _ => true
  | .doorbellSnoop port ring => ringOk port ring
  | .nudge port _ _ => portOk port
  | .doorbellRead port ring _ => ringOk port ring
  | .descFetch port ring _ => ringOk port ring
  | .refetchTimer port ring => ringOk port ring
  | .descAccept port ring => ringOk port ring
  | .fenceSatisfied _ => true
  | .paramBlockRead _ => true
  | .chainStart port ring => ringOk port ring
  | .commandTimeout _ => true
  | .completionSpaceRecheck port ring _ => ringOk port ring
  | .ringEnable port ring _ => ringOk port ring
  | .ringDisable port ring _ => ringOk port ring
  | .ringDrainEnd port ring => ringOk port ring
  | .stepBoundary _ => true
  | .stepEnd _ => true
  | .frameQuiescent frame => frameOk frame
  | .forwardPassEnd _ => true
  | .tiePassStart _ => true
  | .gradRuleEval _ _ => true
  | .ctrlNop b c => ctxOk b c
  | .ctrlAdd b c _ _ _ => ctxOk b c
  | .addi b c _ _ _ => ctxOk b c
  | .sub b c _ _ _ => ctxOk b c
  | .and b c _ _ _ => ctxOk b c
  | .or b c _ _ _ => ctxOk b c
  | .xor b c _ _ _ => ctxOk b c
  | .shl b c _ _ _ => ctxOk b c
  | .shr b c _ _ _ => ctxOk b c
  | .li b c _ _ => ctxOk b c
  | .lih b c _ _ => ctxOk b c
  | .lds b c _ _ _ => ctxOk b c
  | .beq b c _ _ _ => ctxOk b c
  | .bne b c _ _ _ => ctxOk b c
  | .bltu b c _ _ _ => ctxOk b c
  | .loop b c _ => ctxOk b c
  | .rest b c => ctxOk b c
  | .endStep b c => ctxOk b c
  | .wait b c _ _ _ => ctxOk b c
  | .signal b c _ _ _ => ctxOk b c
  | .mma b c _ => ctxOk b c
  | .mmaComplete b => b.ok
  | .fillerExpire b array => b.ok && decide (array < 2)
  | .mv b c _ => ctxOk b c
  | .mvComplete r channel _ _ => r.ok && decide (channel < 4)
  | .coilInject b c _ => ctxOk b c
  | .coilLand b c _ => ctxOk b c
  | .coilFlitAccept _ _ _ _ => true
  | .coilComplete b job => b.ok && decide (job < 3)
  | .vecChainStart b c _ => ctxOk b c
  | .vecComplete b => b.ok
  | .vadd b c _ => ctxOk b c
  | .vsub b c _ => ctxOk b c
  | .vmul b c _ => ctxOk b c
  | .vfma b c _ => ctxOk b c
  | .vmax b c _ => ctxOk b c
  | .vmin b c _ => ctxOk b c
  | .vabs b c _ => ctxOk b c
  | .vneg b c _ => ctxOk b c
  | .vmov b c _ => ctxOk b c
  | .vdiv b c _ => ctxOk b c
  | .vrsqrt b c _ => ctxOk b c
  | .vexp b c _ => ctxOk b c
  | .vsigm b c _ => ctxOk b c
  | .vtanh b c _ => ctxOk b c
  | .vgelu b c _ => ctxOk b c
  | .vsel b c _ => ctxOk b c
  | .vcmpgt b c _ => ctxOk b c
  | .vcmpge b c _ => ctxOk b c
  | .vcmpeq b c _ => ctxOk b c
  | .vdq b c _ => ctxOk b c
  | .vdqr b c _ => ctxOk b c
  | .vqb b c _ => ctxOk b c
  | .vrsum b c _ => ctxOk b c
  | .vrmax b c _ => ctxOk b c
  | .vrmin b c _ => ctxOk b c
  | .vramax b c _ => ctxOk b c
  | .vidx b c _ => ctxOk b c
  | .vchk b c _ => ctxOk b c
  | .vhist b c _ => ctxOk b c
  | .vstat b c _ => ctxOk b c
  | .indexList frame unit _ => gatherOk frame unit
  | .gatherPosition frame unit _ => gatherOk frame unit
  | .runAheadList frame unit _ _ => gatherOk frame unit
  | .promotion frame _ _ => frameOk frame
  | .promotionRoomTimeout frame => frameOk frame
  | .counterDecay frame _ _ _ => frameOk frame
  | .kilnPolicyMove frame _ _ _ => frameOk frame
  | .relocation frame _ _ _ _ _ _ => frameOk frame
  | .carryDispatch frame _ _ _ => frameOk frame
  | .add frame unit _ => carryOk frame unit
  | .addScaled frame unit _ => carryOk frame unit
  | .journalDrain frame _ => frameOk frame
  | .journalAck _ _ => true
  | .gapRecord frame => frameOk frame
  | .checkpointShard frame _ _ => frameOk frame
  | .streamRecord frame _ => frameOk frame
  | .dirtyResend frame => frameOk frame
  | .mirrorSweep frame _ _ => frameOk frame
  | .twinSilence => true
  | .silenceSelfFence _ => true
  | .silenceFenceAssert => true
  | .twinFenceIn _ => true
  | .twinFenceRelease _ _ => true
  | .hello frame _ _ => frameOk frame
  | .streamAck frame _ => frameOk frame
  | .pairEvent target _ => target.ok
  | .carryFwd frame _ _ => frameOk frame
  | .fwdAck _ => true
  | .digest frame _ _ _ _ => frameOk frame
  | .burstReq frame tier burst => frameOk frame && decide (burst * 64 + 64 ≤ tier.bytes)
  | .mapout frame _ _ _ => frameOk frame
  | .atRisk frame _ => frameOk frame
  | .handover _ => true
  | .hbmTempSample frame _ => frameOk frame
  | .bandAction frame => frameOk frame
  | .scrub frame tier burst _ => frameOk frame && decide (burst * 64 + 64 ≤ tier.bytes)
  | .mapOut frame unit _ _ => frameOk frame && unit.ok
  | .pageRestore frame _ _ _ _ => frameOk frame
  | .pageSwitch _ _ => true
  | .windowRead port _ _ _ => portOk port
  | .windowWrite port _ _ => portOk port
  | .winBaseWrite port _ => portOk port
  | .winSlideDone port => portOk port
  | .biasSet port page => portOk port && decide (page < 4096)
  | .biasClear port page => portOk port && decide (page < 4096)
  | .birsp port page => portOk port && decide (page < 4096)
  | .attach port _ => portOk port
  | .shadowHeadWrite port _ => portOk port
  | .faultRingHeadWrite port _ => portOk port
  | .kilnFaultResolve part _ _ => portOk part
  | .perst port _ => portOk port
  | .hotReset port _ => portOk port
  | .functionLevelReset port _ => portOk port
  | .d3hotEntry port _ => portOk port
  | .dlDown port _ => portOk port
  | .viral port _ => portOk port
  | .linkRecovery port _ => portOk port
  | .recoveryTimeout port _ => portOk port
  | .hostLinkUp port cxl flit speed width => portOk port && hostLinkOk cxl flit speed width
  | .tallyPeriod frame _ => frameOk frame
  | .quotaPoolRelease frame => frameOk frame
  | .coneSample frame _ _ => frameOk frame
  | .frameCapWrite port frame _ => portOk port && frameOk frame
  | .speedWrite port frame _ => portOk port && frameOk frame
  | .acctFree port _ => portOk port
  | .rodTestStart port _ => portOk port
  | .spareRodTest frame group phys => physOk frame group phys
  | .rodTestDone frame group phys _ => physOk frame group phys
  | .livenessProbe r _ => r.ok
  | .rodFail r _ => r.ok
  | .flitReceive frame link _ => linkOk frame link
  | .nak frame link _ => linkOk frame link
  | .linkTraining frame link _ _ => linkOk frame link
  | .ident frame link _ => linkOk frame link
  | .linkRetrain frame link => linkOk frame link
  | .txnWrite frame _ => frameOk frame
  | .txnRead frame _ _ => frameOk frame
  | .txnResp _ => true
  | .txnForward frame _ _ => frameOk frame
  | .fabricTimeoutExpire _ => true
  | .powerOn _ => true
  | .powerLoss => true
  | .resetPin => true
  | .kilnWatchdog frame _ _ _ => frameOk frame
  | .kilnReturn frame => frameOk frame
  | .fwConfirm frame => frameOk frame
  | .fenceAndReset frame _ _ => frameOk frame
  | .thermalTrip _ => true
  | .thermalTripEnd _ => true
  | .clkLoss => true
  | .clkReturn _ => true
  | .gwDiscard port _ => portOk port
  | .registerWrite port offset _ _ => portOk port && decide (offset < 0x10000)
  | .status => true
  | .regRead _ _ => true
  | .regWrite _ _ _ => true
  | .mbLayout _ _ _ => true
  | .mbEntry _ _ => true
  | .mbCheck _ => true
  | .mbCommit _ => true
  | .mbDiscard _ => true
  | .moduleReset _ _ _ => true
  | .frameReset _ _ _ _ => true
  | .protCommit _ _ => true
  | .fwStage _ _ _ => true
  | .fwActivate _ _ => true
  | .fwPrefer _ _ => true
  | .calWrite _ _ => true
  | .calCommit _ => true
  | .alertResponse => true
  | .eject _ _ => true
  | .adopt _ => true
  | .saggarInsert _ _ => true
  | .saggarDrainDone _ => true
  | .saggarRemove _ => true
  | .saggarRebuildDone _ _ => true
  | .resetPinRelease _ => true
  | .auxValid => true
  | .keepAliveLoss => true

end Sys2Proof
end

