-- ==== Sys2Proof/Safety.lean ====
section
/-! DEFINITION. What counts as a safe state, and the terms of the statements: a command that runs, what a change leaves alone, a
sequence of commands. -/

namespace Sys2Proof.Machine

/-- Every memory is in canonical form: addresses strictly rising, no listed byte equal to what an unlisted address reads. -/
def Memory.wf (m : Memory) : Bool := m.dram.wf && m.side.wf && m.scratch.wf && m.pool.wf

/-- The memory invariant: what every step keeps. -/
def State.memOk (s : State) : Bool := s.mem.wf

/-- The command runs: it answers a next state, and that state satisfies `P`. -/
def Runs (i : Instr) (s : State) (P : State → Prop) : Prop := ∃ t, exec i s = .next t ∧ P t

/-- `n` passes of a change. -/
def times {α : Type} : Nat → (α → α) → α → α
  | 0, _, a => a
  | n + 1, g, a => times n g (g a)

/-! ## What a change leaves alone -/

/-- Only bead `b` changed. -/
def OnlyBead (b : BeadId) (s t : State) : Prop :=
  { t with beads := s.beads } = s ∧ ∀ d : BeadId, d.key ≠ b.key → t.bead d = s.bead d

/-- Only context `c` of bead `b` changed. -/
def OnlyContext (b : BeadId) (c : Nat) (s t : State) : Prop :=
  OnlyBead b s t ∧ { t.bead b with ctxs := (s.bead b).ctxs } = s.bead b ∧
    ∀ d, d ≠ c → (t.bead b).ctx d = (s.bead b).ctx d

/-- Only frame `f` changed. -/
def OnlyFrame (f : Nat) (s t : State) : Prop :=
  { t with frames := s.frames } = s ∧ ∀ g, g ≠ f → t.frame g = s.frame g

/-- Only port `p` changed. -/
def OnlyPort (p : Nat) (s t : State) : Prop :=
  { t with ports := s.ports } = s ∧ ∀ q, q ≠ p → t.port q = s.port q

/-- Only ring `r` of port `p` changed. -/
def OnlyRing (p r : Nat) (s t : State) : Prop :=
  OnlyPort p s t ∧ { t.port p with rings := (s.port p).rings } = s.port p ∧ ∀ q, q ≠ r → t.ring p q = s.ring p q

/-- Only partition `n` changed. -/
def OnlyPart (n : Nat) (s t : State) : Prop :=
  { t with parts := s.parts } = s ∧ ∀ m, m ≠ n → t.part m = s.part m

end Sys2Proof.Machine
end

