-- ==== Sys2Proof/Certificates/Slice0/Obligations.lean ====
section
/-! DEFINITION. The statements for the provers: what a step runs, what reset leaves, what every family of commands does and what
it leaves alone. A hypothesis of a statement names the state in which the command has its own effect; what happens elsewhere
is in the statements that say so. -/

open Sys2Proof Sys2Proof.Machine

/-! ## Command rings -/

/-- R293, R294, R300: a host write takes the doorbell line of a CXL port and wakes a sleeping ring; a nudge adds 1 to the ring's
epoch and wakes it. A ring that wakes is FETCHING and armed again. Nothing else changes. -/
def Obligations.SleepingRingsWake : Prop :=
  ∀ (p q n : Nat) (s : State), ringOk p q = true → s.up = true →
    let r := s.ring p q
    let asleep := r.state = 1 ∨ r.state = 3
    ((s.port p).cxl = true → r.lineHeld = true → Runs (.doorbellSnoop p q) s fun t => OnlyRing p q s t ∧
      t.ring p q = if asleep then { r with lineHeld := true, snooped := false, state := 2, tries := 0, fetchDue := false, fetched := [] }
        else { r with lineHeld := false, snooped := true }) ∧
    ((s.port p).cxl = false ∨ r.lineHeld = false → Runs (.doorbellSnoop p q) s fun t => OnlyRing p q s t ∧ t.ring p q = r) ∧
    ((s.port p).cxl = false → (s.port p).state ≠ 0 → 1 ≤ n → n ≤ 8 → Runs (.nudge p (q * 64) n) s fun t =>
      OnlyRing p q s t ∧ t.ring p q = if asleep then
          { r with nudges := r.nudges + 1, armed := r.nudges + 1, state := 2, tries := 0, fetchDue := false, fetched := [] }
        else { r with nudges := r.nudges + 1 }) ∧
    (∀ off, off % 64 ≠ 0 → exec (.nudge p off n) s = .next s)

/-- R292, R297, R300, R315: a doorbell read takes DESC_TAIL and CPL_HEAD; more than N descriptors offered raise BAD_TAIL, none
sends the ring to sleep, and else the descriptors are due. Sequence number s stands at slot s mod N of RING_DESC_BASE (R288,
R289); a read keeps the valid descriptors at its front; one with none is tried again after the timer, and the ring parks in
AWAIT after the ninth. Choices of the model that this rests on: log 90. -/
def Obligations.RingFetchesDescriptors : Prop :=
  ∀ (p q : Nat) (w : Word64) (host : List (Nat × RawDesc)) (s : State), ringOk p q = true → s.fetches p = true →
    (s.ring p q).state = 2 →
    let r := s.ring p q
    (r.fetched = [] → r.tries = 0 → r.fetchDue = false → r.woken (s.port p).cxl = false →
      Runs (.doorbellRead p q w) s fun t => OnlyRing p q s t ∧
        let n := (w.extractLsb' 0 16 - r.fetchSeq).toNat
        let got := { r with tail := w.extractLsb' 0 16, cplHead := w.extractLsb' 16 16 }
        t.ring p q = if 2 ^ r.log2.toNat < n then { got with badTail := true, state := 1 }
          else if n = 0 then { got with badTail := false, state := 1 }
          else { got with badTail := false, fetchDue := true }) ∧
    (r.fetchDue = true → Runs (.descFetch p q host) s fun t => OnlyRing p q s t ∧
      let v := validPrefix (2 ^ r.log2.toNat) r.fetchSeq (r.slotsFrom host r.fetchSeq (max 1 (min 8 r.offered)))
      (∀ d, Sparse.find host (r.descBase.toNat * 4096 + r.fetchSeq.toNat % 2 ^ r.log2.toNat * 64) = some d →
        d.w7.extractLsb' 0 16 = r.fetchSeq → d.w7.getLsbD 16 = decide (r.fetchSeq.toNat / 2 ^ r.log2.toNat % 2 = 0) →
        (t.ring p q).fetched.head? = some d) ∧
      (v ≠ [] → t.ring p q = { r with fetched := v, fetchDue := false }) ∧
      (v = [] → r.tries < 8 → t.ring p q = { r with tries := r.tries + 1, fetchDue := false }) ∧
      (v = [] → r.tries = 8 → r.woken (s.port p).cxl = false →
        t.ring p q = { r with tries := 9, fetchDue := false, awaits := min (r.awaits + 1) 0xFFFF, state := 3 })) ∧
    (r.tries ≠ 0 → r.tries ≤ 8 → r.fetchDue = false → r.fetched = [] →
      Runs (.refetchTimer p q) s fun t => OnlyRing p q s t ∧ t.ring p q = { r with fetchDue := true })

/-- R290, R320: ENABLE 1 starts an OFF ring (one whose LOG2_ENTRIES is 6 to 12, R289) at FETCH_SEQ and CPL_POS 0, and its first
descriptor has PHASE 1. ENABLE 0 stops acceptance at once, in AWAIT and IDLE too: the ring is DRAINING, accepts no descriptor,
and keeps its commands; it shows OFF when INFLIGHT and the held records are 0. ENABLE 1 while it drains is ignored. -/
def Obligations.RingControlStartsAndDrains : Prop :=
  ∀ (p q : Nat) (w : Word64) (s : State), ringOk p q = true → s.up = true → (s.port p).state ≠ 0 →
    let r := s.ring p q
    let log2 := w.extractLsb' 4 4
    (r.state = 0 → 6 ≤ log2.toNat → log2.toNat ≤ 12 →
      Runs (.ringEnable p q w) s fun t => OnlyRing p q s t ∧
        let g := t.ring p q
        g.state = 2 ∧ g.enable = true ∧ g.log2 = log2 ∧ g.fetchSeq = 0 ∧ g.cplPos = 0 ∧ g.tail = 0 ∧ g.cplHead = 0 ∧
          g.awaits = 0 ∧ g.descBase = r.descBase ∧ g.cplBase = r.cplBase ∧ g.dbAddr = r.dbAddr ∧
          ∀ d, validDesc g.size g.fetchSeq d = true → d.w7.getLsbD 16 = true) ∧
    (r.state ≠ 0 → Runs (.ringDisable p q w) s fun t => OnlyRing p q s t ∧
      let g := t.ring p q
      g.state = 4 ∧ g.enable = false ∧ g.fetched = [] ∧ g.log2 = r.log2 ∧ g.inflight = r.inflight ∧ g.held = r.held ∧
        g.fetchSeq = r.fetchSeq) ∧
    (r.state = 4 → Runs (.ringEnable p q w) s fun t => OnlyRing p q s t ∧ t.ring p q = r) ∧
    (r.state = 4 → exec (.descAccept p q) s = .next s ∧ exec (.refetchTimer p q) s = .next s ∧
      (∀ ds, exec (.descFetch p q ds) s = .next s) ∧ ∀ v, exec (.doorbellRead p q v) s = .next s) ∧
    (r.state = 4 → Runs (.ringDrainEnd p q) s fun t => OnlyRing p q s t ∧
      t.ring p q = if r.inflight = 0 ∧ r.held = [] then { r with state := 0 } else r)

/-- The command is in flight, once, and no record of it is held. -/
def InFlight (s : State) (c : Nat) (x : Cmd) : Prop :=
  s.cmd c = some x ∧ x.id = c ∧ (∀ h ∈ (s.ring x.port x.ring).held, h.1 ≠ c)

/-- R291, R296, R298, R299, R303: the next valid descriptor of the ring in turn is accepted when a place exists: its command
takes the place, in flight, waiting for its fence if it names one that is not reached, for its parameter block if INDIRECT, and
otherwise ready; one that breaks a format rule completes with STATE_REFUSED and DETAIL 0xF0. R299: rings take turns: while the
ring after the one served last could accept a descriptor, no other ring accepts one. R302, R303: a command whose fence is
reached goes on; a command whose parameter block can be read takes its operands from it and starts, one that cannot be read is
refused with 0xF2, one that breaks a rule with 0xF0. R304, R305: a chain starts its descriptor in device memory with the depth
increased; over 255, or unreadable, it is refused. Choices of the model that this rests on: logs 19, 87. -/
def Obligations.DescriptorsBecomeCommands : Prop :=
  (∀ (p q : Nat) (s : State) (d : RawDesc) (rest : List RawDesc), ringOk p q = true → s.fetches p = true →
     (s.ring p q).state = 2 → s.hasPlace p q = true → (s.ring p q).fetched = d :: rest → (s.ring p q).chains = [] →
     s.ringTurn p q = true → (∀ x ∈ s.cmds, x.id ≠ s.nextCmd) →
     let e := parseDesc d
     let r := s.ring p q
     let reached := fencePast (Sparse.read 0#32 (s.part p).fences e.waitFence) e.waitValue
     let x := { newCmd s.nextCmd p q r.fetchSeq e false 0 (s.queueLength s.nextCmd p (e.op0.toNat % 2 ^ 32)) none with
       hot := s.hotFrames }
     let g := { r with fetchSeq := r.fetchSeq + 1, fetched := rest }
     let g := if rest = [] then g.top (s.port p).cxl else g
     let served := s.modPort p fun y => { y with lastRing := q }
     let u := served.modRing p q fun _ => g
     (e.formatOk false = true → (e.opcode ≠ 0x02 ∨ e.indirect = true ∨ (e.waits = true ∧ reached = false)) →
       Runs (.descAccept p q) s fun t => OnlyRing p q { served with cmds := t.cmds, nextCmd := t.nextCmd } t ∧
         t.nextCmd = s.nextCmd + 1 ∧
         t.ring p q = { g with inflight := r.inflight + 1 } ∧
         t.cmds = s.cmds ++ [if e.waits = true ∧ reached = false then x
           else if e.indirect = true then { x with phase := .params } else { x with phase := .ready }]) ∧
     (e.formatOk false = false → exec (.descAccept p q) s = .next ((u.addCmd x).refuse s.nextCmd 0xF0))) ∧
  (∀ (p q k : Nat) (s : State), ringOk p q = true → k < 64 → k ≠ q → (s.port p).lastRing = (k + 63) % 64 →
     s.canAccept p k = true → exec (.descAccept p q) s = .next s) ∧
  (∀ (c p q : Nat) (s : State) (x : Cmd),
     (InFlight s c x → x.phase = .fence → x.d.waits = true →
       fencePast (Sparse.read 0#32 (s.part x.port).fences x.d.waitFence) x.d.waitValue = true →
       exec (.fenceSatisfied c) s = .next (if x.d.indirect then s.modCmd c fun x => { x with phase := .params }
         else s.startCmd x)) ∧
     (∀ g, InFlight s c x → x.phase = .params → s.pinnedPage x.port x.d.op0.toNat = some g →
       let a := g.place.add (x.d.op0.toNat % 65536)
       let word := fun i => BitVec.ofNat 64 (s.devNat (a.add (8 * i)) 8)
       s.badRead a 32 = false →
       (operandsOk x.d.opcode (word 0).toNat (word 1).toNat (word 2).toNat = true → s.devNat (a.add 24) 8 = 0 →
         x.d.opcode ≠ 0x02 → Runs (.paramBlockRead c) s fun t =>
           ∃ y, t.cmd c = some y ∧ y.op0 = word 0 ∧ y.op1 = word 1 ∧ y.op2 = word 2 ∧ y.phase = .ready) ∧
       (operandsOk x.d.opcode (word 0).toNat (word 1).toNat (word 2).toNat = false →
         exec (.paramBlockRead c) s = .next (s.refuse c 0xF0))) ∧
     (InFlight s c x → x.phase = .params → s.pinnedPage x.port x.d.op0.toNat = none →
       exec (.paramBlockRead c) s = .next (s.refuse c 0xF2)) ∧
     (∀ addr seq depth rest g, ringOk p q = true → s.up = true → s.hasPlace p q = true →
       (s.ring p q).chains = (addr, seq, depth) :: rest → depth ≤ 255 → (s.port p).state = 2 →
       s.pinnedPage p addr.toNat = some g → s.badRead (g.place.add (addr.toNat % 65536)) 64 = false →
       exec (.chainStart p q) s = .next ((s.modRing p q fun r => { r with chains := rest }).accept p q seq
         (parseDesc (s.descAt (g.place.add (addr.toNat % 65536)))) true depth none)) ∧
     (∀ addr seq depth rest, ringOk p q = true → s.up = true → s.hasPlace p q = true →
       (s.ring p q).chains = (addr, seq, depth) :: rest → 255 < depth → (s.port p).state = 2 → Runs (.chainStart p q) s fun t =>
         ∃ y : Cmd, y.chained = true ∧ y.depth = depth ∧ y.port = p ∧ y.ring = q ∧ y.seq = seq ∧ y.d.flags = 0 ∧
           (∀ d, s.chainDesc p addr.toNat = some d → y.d.tag = d.tag ∧ y.d.opcode = d.opcode) ∧
           t = (((s.modRing p q fun r => { r with chains := rest }).addCmd y).tick.tick).refuse s.nextCmd 0xF1))

/-- R303, R304, R308, R309, R310: a command completes: its signal fence is set if it is past the fence's value, its record, with
TAG, SEQ, code, detail, depth, opcode and result, is posted at CPL_POS with the PHASE of its pass when the completion ring has
space, the command leaves its place, and its chain is queued. While the ring has no space the record is held and the command
keeps its place. The memory of the device is unchanged. R2, R308: the 32 B of a completion record, little-endian: TAG, SEQ, CODE
in bits 3:0 and CHAINED in bit 4 of byte 4, DETAIL, DEPTH, opcode, RESULT, FETCHED, ELAPSED_US at byte 20, and PHASE as the
topmost bit. R309: the recheck of a completion ring takes CPL_HEAD, as every read of the doorbell word does with BAD_TAIL (R289,
R292), and posts the oldest held record when there is space. Choices of the model that this rests on: log 4. -/
def Obligations.CompletionsArePosted : Prop :=
  (∀ (s : State) (c code detail : Nat) (result : Word64) (x : Cmd), InFlight s c x → x.d.opcode ≠ 0x02 → x.down = none →
     ((s.port x.port).state = 2 ∨ (s.port x.port).state = 3) →
     let r := s.ring x.port x.ring
     let t := s.complete c code detail result
     let cur := Sparse.read 0#32 (s.part x.port).fences x.d.signalFence
     let signals := x.d.flags.getLsbD 2 = true ∧ (code = 0 ∨ x.d.flags.getLsbD 3 = true)
     let chains := (x.d.flags.getLsbD 4 = true ∧ code = 0) ∨ x.d.flags.getLsbD 5 = true
     let g := t.ring x.port x.ring
     t.mem = s.mem ∧ t.beads = s.beads ∧ t.frames = s.frames ∧ t.firings = s.firings ∧
     Sparse.read 0#32 (t.part x.port).fences x.d.signalFence =
       (if signals ∧ fencePast x.d.signalValue cur = true then x.d.signalValue else cur) ∧
     (∀ k, k ≠ x.d.signalFence → Sparse.read 0#32 (t.part x.port).fences k = Sparse.read 0#32 (s.part x.port).fences k) ∧
     g.chains = (if chains then r.chains ++ [(x.d.chainAddr, x.seq, x.depth + 1)] else r.chains) ∧
     (r.held = [] → r.hasSpace = true → ∃ rec : CplRecord,
       rec.tag = x.d.tag ∧ rec.seq = x.seq ∧ rec.code = BitVec.ofNat 4 code ∧ rec.detail = BitVec.ofNat 8 detail ∧
       rec.depth = BitVec.ofNat 8 x.depth ∧ rec.opcode = BitVec.ofNat 8 x.d.opcode ∧ rec.result = (if code = 0 ∨ x.d.opcode = 0x0A then result else 0) ∧ rec.chained = x.chained ∧ rec.fetched = r.fetchSeq ∧
       (t.port x.port).tx = (s.port x.port).tx ++
         [.completion c (r.cplBase.toNat * 4096 + r.cplPos % r.size * 32) (rec.bytes (decide (r.cplPos / r.size % 2 = 0)))] ∧
       t.cmds = (s.cmds.filter fun y => decide (y.id ≠ c)) ∧ g.inflight = r.inflight - 1 ∧
       g.cplPos = (r.cplPos + 1) % 65536) ∧
     (r.held ≠ [] ∨ r.hasSpace = false → t.cmds = s.cmds ∧ (t.port x.port).tx = (s.port x.port).tx ∧
       g.inflight = r.inflight ∧ ∃ rec : CplRecord, rec.code = BitVec.ofNat 4 code ∧ rec.detail = BitVec.ofNat 8 detail ∧
         rec.result = (if code = 0 ∨ x.d.opcode = 0x0A then result else 0) ∧ g.held = r.held ++ [(c, rec)])) ∧
  (∀ (r : CplRecord) (phase : Bool),
     let at_ := fun off n => leNat (((r.bytes phase).drop off).take n)
     (r.bytes phase).length = 32 ∧ at_ 0 2 = r.tag.toNat ∧ at_ 2 2 = r.seq.toNat ∧
     at_ 4 1 % 16 = r.code.toNat ∧ at_ 4 1 / 16 = bit r.chained ∧ at_ 5 1 = r.detail.toNat ∧ at_ 6 1 = r.depth.toNat ∧
     at_ 7 1 = r.opcode.toNat ∧ at_ 8 8 = r.result.toNat ∧ at_ 16 2 = r.fetched.toNat ∧ at_ 18 2 = 0 ∧
     at_ 20 4 = r.elapsedUs.toNat ∧ at_ 24 4 = 0 ∧ at_ 28 4 = bit phase * 2 ^ 31) ∧
  (∀ (p q c : Nat) (w : Word64) (s : State) (x : Cmd) (rec : CplRecord), ringOk p q = true → s.up = true →
     (s.port p).state = 2 → (s.ring p q).held = [(c, rec)] → s.cmd c = some x → x.port = p → x.ring = q → x.id = c →
     let r := { s.ring p q with cplHead := w.extractLsb' 16 16 }
     Runs (.completionSpaceRecheck p q w) s fun t =>
       (r.hasSpace = true → (t.ring p q).held = [] ∧ t.cmds = (s.cmds.filter fun y => decide (y.id ≠ c)) ∧
         (t.port p).tx = (s.port p).tx ++ [.completion c (r.cplBase.toNat * 4096 + r.cplPos % r.size * 32)
           (({ rec with fetched := r.fetchSeq } : CplRecord).bytes (decide (r.cplPos / r.size % 2 = 0)))]) ∧
       (r.hasSpace = false → (t.ring p q).held = [(c, rec)] ∧ t.cmds = s.cmds ∧ (t.port p).tx = (s.port p).tx) ∧
       (t.ring p q).cplHead = w.extractLsb' 16 16 ∧
       (t.ring p q).badTail = decide (r.size < (w.extractLsb' 0 16 - r.fetchSeq).toNat))

/-! ## Commands of the rings -/

/-- The command is in flight with an opcode, its fences and parameters done, and has not started. -/
def Ready (s : State) (c op : Nat) (x : Cmd) : Prop :=
  InFlight s c x ∧ x.phase = .ready ∧ x.d.opcode = op ∧ s.up = true

/-- R251, R274, R301, R303: FENCE_SIGNAL and NOP complete with OK and have no other effect than their completion; TLB_INVALIDATE
drops the partition's translations of its range from every cache, and completes at once where no transfer to another module that
used one is unfinished, and otherwise once that has ended; it is refused with DETAIL 0x13 where the range holds a pinned page;
MEM_ADVISE keeps an advice on pages for its partition and completes. R189, R190, R204: HIST_READ writes the 288 B records of the
frames and units it names and completes with their number, and with CLEAR sets them to 0; it is refused with DETAIL 0x17 where a
gradient rule reads a unit that it would clear. -/
def Obligations.CommandsCompleteOrRefuse : Prop :=
  (∀ (c : Nat) (s : State) (x : Cmd),
     (Ready s c 0x38 x → exec (.fenceSignal c) s = .next (s.complete c 0 0 0)) ∧
     (Ready s c 0x3F x → exec (.nop c) s = .next (s.complete c 0 0 0)) ∧
     (Ready s c 0x12 x →
       let pinned := s.rangePinned x.port x.op0.toNat x.op1.toNat || s.windowPinned x.port x.op0.toNat x.op1.toNat
       let t := (s.dropTlb x.port x.op0.toNat x.op1.toNat).modCmd c fun y => { y with phase := .busy }
       (pinned = true → exec (.tlbInvalidate c) s = .next (s.complete c 1 0x13 0)) ∧
       ((∀ y ∈ s.cmds, y.id = c → y = x) → (∀ y ∈ s.cmds, y.d.opcode = 0x12 → y.phase ≠ .busy) → pinned = false →
         exec (.tlbInvalidate c) s =
           .next (if s.rangeInFlight x.port x.op0.toNat x.op1.toNat then t else t.complete c 0 0 0)) ∧
       t.mem = s.mem ∧
       (∀ f e, f < 20 → e ∈ (t.frame f).tlb → e ∈ (s.frame f).tlb ∧
         ¬(e.1 = x.port ∧ x.op0.toNat / 65536 ≤ e.2.1 ∧ e.2.1 * 65536 < x.op0.toNat + x.op1.toNat))) ∧
     (InFlight s c x → x.phase = .busy → x.d.opcode = 0x12 → s.rangeInFlight x.port x.op0.toNat x.op1.toNat = false →
       (∀ y ∈ s.cmds, y.id = c → y = x) → (∀ y ∈ s.cmds, y.d.opcode = 0x12 → y.phase = .busy → y.id = c) →
       s.settleTlb = s.complete c 0 0 0) ∧
     (Ready s c 0x11 x → x.advice.rows = false → x.advice.kind = 2 →
       exec (.memAdvise c) s = .next ((s.forEach (wholePages x.advice.start x.advice.count) fun t p =>
         t.discardPage c x.port (p * 65536)).complete c 0 0 0)) ∧
     (Ready s c 0x11 x → x.advice.rows = false → x.advice.kind ≠ 2 → x.advice.kind ≠ 5 →
       exec (.memAdvise c) s = .next ((s.modPart x.port fun p => { p with advice := p.advice ++ [x.advice] }).complete c 0 0 0))) ∧
  (∀ (c : Nat) (s : State) (x : Cmd) (f : Firing), Ready s c 0x20 x → s.firing x.handle = some f → f.part = x.port →
     let us := x.histUnits f
     let clear := bitAt x.op1.toNat 63
     let t := fun pins => s.pinWrite pins x.op2.toNat (us.flatMap fun q => f.histBytes q.1 q.2)
     (∀ pins, (clear = true → f.ruleReads us = false) → s.outputPins x.port x.op2.toNat (288 * us.length) = some pins →
       s.twin.role < 2 → exec (.histRead c) s = .next ((if clear then (t pins).modFiring f.handle fun f =>
         us.foldl (fun f q => f.clearRecord q.1 q.2) f else t pins).complete c 0 0 (BitVec.ofNat 64 us.length))) ∧
     (clear = true → f.ruleReads us = true → exec (.histRead c) s = .next (s.complete c 1 0x17 0)) ∧
     (∀ k u, (f.histBytes k u).length = 288))

/-- R250: MEM_PREFETCH marks the leaves of its range's pages BUSY and waits for their switches; it is refused where a page is
pinned or mirrored (DETAIL 0x13) or the destinations lack space (0x14). Each PAGE_SWITCH copies one page and writes its new
leaf; the last completes the command with the number of pages. R102, R225, R306: a command that expires while it waits completes
with TIMEOUT and DETAIL 1; one whose kiln action has not begun with DETAIL 4. TWIN_HANDOVER is refused with DETAIL 0x19 where
the twin state does not allow it, and otherwise begins the handover and completes when the roles are exchanged. Choices of the
model that this rests on: logs 50, 58. -/
def Obligations.PrefetchAndTimeouts : Prop :=
  (∀ (c : Nat) (s : State) (x : Cmd) (targets : List Nat) (host : List Byte),
     let pages := s.rangePages x.port x.op0.toNat x.op1.toNat
     let span := pagesSpan x.op0.toNat x.op1.toNat pages
     let fixed := s.rangePinned x.port span.1 span.2 ||
       pages.any fun q => (leafFrames q.2.2.2 q.2.2.1).any s.pageMirrored
     (Ready s c 0x10 x → fixed = true → exec (.memPrefetch c targets) s = .next (s.complete c 1 0x13 0)) ∧
     (Ready s c 0x10 x → fixed = false → s.hasRoom x [] (bySize pages) = false →
       exec (.memPrefetch c targets) s = .next (s.complete c 1 0x14 0)) ∧
     (∀ ms, Ready s c 0x10 x → fixed = false → s.hasRoom x [] (bySize pages) = true → s.planMoves x [] pages targets = some ms → ms ≠ [] →
       (∀ m ∈ ms, bitAt m.word 12 = false) → Runs (.memPrefetch c targets) s fun t =>
         ∃ y, t.cmd c = some y ∧ y.phase = .busy ∧ y.targets = ms ∧ y.done = 0) ∧
     (∀ m u, InFlight s c x → s.up = true → x.phase = .busy → x.d.opcode = 0x10 → x.targets = [m] →
       s.pageShared x.port m.va m.size = [] → s.hostReachable x.port = true → s.chargeMove x.port m = .ok u →
       ∃ t : State, exec (.pageSwitch c host) s = .next (t.complete c 0 0 (BitVec.ofNat 64 (x.done + 1))) ∧
         (t.cmd c).map (fun y => (y.targets, y.done)) = some ([], x.done + 1)) ∧
     (∀ m m' rest u, InFlight s c x → s.up = true → x.phase = .busy → x.d.opcode = 0x10 → x.targets = m :: m' :: rest →
       s.pageShared x.port m.va m.size = [] → s.hostReachable x.port = true → s.chargeMove x.port m = .ok u →
       Runs (.pageSwitch c host) s fun t =>
         (t.cmd c).map (fun y => (y.phase, y.targets, y.done)) = some (.busy, m' :: rest, x.done + 1))) ∧
  (∀ (c : Nat) (s : State) (x : Cmd),
     (InFlight s c x → s.up = true → (x.phase = .fence ∨ x.phase = .params) → x.d.opcode ≠ 0x02 →
       exec (.commandTimeout c) s = .next (s.complete c 2 1 0).masterFree) ∧
     (InFlight s c x → s.up = true → x.phase = .ready → kilnAction x.d.opcode = true →
       exec (.commandTimeout c) s = .next (s.complete c 2 4 0).masterFree) ∧
     (Ready s c 0x30 x → s.hasMaster = true → s.mayHandOver = false →
       exec (.twinHandover c) s = .next (s.complete c 1 0x19 0)) ∧
     (Ready s c 0x30 x → s.hasMaster = true → s.mayHandOver = true →
       exec (.twinHandover c) s = .next ((s.modCmd c fun x => { x with phase := .busy }).startTwinHandover (some c))))

/-! ## Scalar instructions of a bead -/

/-- A scalar instruction that writes register `rd` of its context with `v` and goes on at the next instruction: where the
context issues it, nothing else of the machine changes but which context the bead served last; where the context does not issue
it, nothing changes at all. -/
def WritesRegister (i : Instr) (b : BeadId) (c : Nat) (rd : BitVec 4) (v : State → Ctx → Word64) : Prop :=
  ∀ s : State, (s.mayIssue b c i = false → exec i s = .next s) ∧ (s.mayIssue b c i = true → Runs i s fun t =>
    let x := (s.bead b).ctx c
    let y := (t.bead b).ctx c
    OnlyContext b c (s.took b c) t ∧ (rd ≠ 0 → y.reg rd = v s x) ∧ y.reg 0 = 0 ∧ (∀ r, r ≠ rd → y.reg r = x.reg r) ∧
      { y with regs := x.regs } = x.next)

/-- R117: ADD, ADDI, SUB, AND, OR, XOR, SHL, SHR, LI, LIH write rd with the table's value, modulo 2⁶⁴; a write to x0 is ignored
(R111); the rest of the machine is unchanged. R117: LDS reads the 8 B of the bead's own scratch at (rs + IMM[13:0]) & 0x3FF8,
little-endian. R112, R115, R139: a bead issues the next instruction of a context's program and no other, from a context that its
step runs, that has not ended, waits for nothing and names no full engine queue; of the ready contexts it is the first after the
one served last, which the bead keeps. Choices of the model that this rests on: logs 11, 87. -/
def Obligations.ScalarInstructionsWriteRd : Prop :=
  (∀ (b : BeadId) (c : Nat) (rd rs rt : BitVec 4) (imm : BitVec 42), ctxOk b c = true →
     WritesRegister (.ctrlAdd b c rd rs rt) b c rd (fun _ x => x.reg rs + x.reg rt) ∧
     WritesRegister (.addi b c rd rs imm) b c rd (fun _ x => x.reg rs + imm.signExtend 64) ∧
     WritesRegister (.sub b c rd rs rt) b c rd (fun _ x => x.reg rs - x.reg rt) ∧
     WritesRegister (.and b c rd rs rt) b c rd (fun _ x => x.reg rs &&& x.reg rt) ∧
     WritesRegister (.or b c rd rs rt) b c rd (fun _ x => x.reg rs ||| x.reg rt) ∧
     WritesRegister (.xor b c rd rs rt) b c rd (fun _ x => x.reg rs ^^^ x.reg rt) ∧
     WritesRegister (.shl b c rd rs imm) b c rd (fun _ x => x.reg rs <<< (imm.extractLsb' 0 6).toNat) ∧
     WritesRegister (.shr b c rd rs imm) b c rd (fun _ x => x.reg rs >>> (imm.extractLsb' 0 6).toNat) ∧
     WritesRegister (.li b c rd imm) b c rd (fun _ _ => imm.signExtend 64) ∧
     WritesRegister (.lih b c rd imm) b c rd
       (fun _ x => imm.extractLsb' 0 22 ++ (x.reg rd).extractLsb' 0 42)) ∧
  (∀ (b : BeadId) (c : Nat) (rd rs : BitVec 4) (imm : BitVec 42), ctxOk b c = true →
     WritesRegister (.lds b c rd rs imm) b c rd (fun s x =>
       let a := ((x.reg rs + (imm.extractLsb' 0 14).setWidth 64) &&& 0x3FF8#64).toNat
       BitVec.ofNat 64 (leNat (s.mem.scratch.bytes (b.key * 16384 + a) 8)))) ∧
  (∀ (b : BeadId) (c d : Nat) (i : Instr) (s : State), c < 8 → d < 8 → s.mayIssue b c i = true →
     s.up = true ∧ s.fetched b c = some i ∧ ((s.bead b).ctx c).ended = false ∧ ((s.bead b).ctx c).waiting = none ∧
     (∃ f st j, s.stepOf b = some (f, st) ∧ s.fetch b c = some j ∧ s.queueFull f b c j = false) ∧
     ((s.bead b).last < 8 → d ≠ c → s.ctxReady b d = true → (c + 7 - (s.bead b).last) % 8 < (d + 7 - (s.bead b).last) % 8) ∧
     (b.ok = true → i = .ctrlNop b c → Runs i s fun t => (t.bead b).last = c ∧ (t.bead b).issued = (s.bead b).issued + 1))

/-- R117: NOP goes on; BEQ, BNE and BLTU skip IMM[11:0] instructions forward if the test holds and go on otherwise; END ends the
context, which then issues nothing more in the step. R117: LOOP runs the next IMM[11:0] instructions IMM[27:12] times: from the
state after it, passing through the body's instructions that many times leads past the body, with the outer loops as they were.
With a count of 0 the body is skipped at once. -/
def Obligations.BranchesAndLoops : Prop :=
  (∀ (b : BeadId) (c : Nat) (rs rt : BitVec 4) (imm : BitVec 42) (s : State), ctxOk b c = true →
     let x := (s.bead b).ctx c
     let goes := fun (i : Instr) (y : Ctx) => s.mayIssue b c i = true →
       Runs i s fun t => OnlyContext b c (s.took b c) t ∧ (t.bead b).ctx c = y
     let skip := x.goto (x.idx + 1 + (imm.extractLsb' 0 12).toNat)
     goes (.ctrlNop b c) x.next ∧
     goes (.beq b c rs rt imm) (if x.reg rs = x.reg rt then skip else x.next) ∧
     goes (.bne b c rs rt imm) (if x.reg rs = x.reg rt then x.next else skip) ∧
     goes (.bltu b c rs rt imm) (if (x.reg rs).toNat < (x.reg rt).toNat then skip else x.next) ∧
     goes (.endStep b c) { x with ended := true } ∧
     (∀ t, s.mayIssue b c (.endStep b c) = true → exec (.endStep b c) s = .next t → t.issues b c = false)) ∧
  (∀ (b : BeadId) (c : Nat) (imm : BitVec 42) (s : State), ctxOk b c = true → s.mayIssue b c (.loop b c imm) = true →
     let x := (s.bead b).ctx c
     let n := (imm.extractLsb' 0 12).toNat
     let k := (imm.extractLsb' 12 16).toNat
     (∀ l ∈ x.loops, x.idx + 1 + n ≤ l.last) → 0 < n →
     Runs (.loop b c imm) s fun t => OnlyContext b c (s.took b c) t ∧
       times (n * k) Ctx.next ((t.bead b).ctx c) = { x with idx := x.idx + 1 + n })

/-- R119, R257: WAIT holds the context until its counter is at least VALUE: it goes on at once where the counter is there
already, with the writes ordered before the releases that pair with it ordered before what it does next. R117, R137: REST stops
the filler operations of the bead's arrays at once. R118, R119, R257: an increment adds 1 to its counter and releases every
context that waits on the counter for a value now reached, with what the paired releases order; the other counters and contexts
stay. At 0xFFFF the counter stays and BEAD_EVT_SAT of the frame rises by 1. R119, R257, R263: SIGNAL increments COUNTER of the
bead that bits [31:0] of register TARGET name, where the firing holds that bead, as a release of what is ordered before it, and
its context goes on. With SCOPE 4 the event goes to the twin's bead. Choices of the model that this rests on: log 22. -/
def Obligations.CountersHoldAndRelease : Prop :=
  (∀ (b : BeadId) (c : Nat) (k : BitVec 5) (v : BitVec 16) (scope : BitVec 3) (s : State),
     ctxOk b c = true →
     let x := (s.bead b).ctx c
     (s.mayIssue b c (.wait b c k v scope) = true → Runs (.wait b c k v scope) s fun t => OnlyContext b c (s.took b c) t ∧
       ({ (t.bead b).ctx c with waiting := none, known := x.known } : Ctx) = { x.next with waiting := none } ∧
       (v.toNat ≤ ((s.bead b).counter k.toNat).toNat → ((t.bead b).ctx c).waiting = none ∧
         ((t.bead b).ctx c).known = x.known.join ((s.bead b).acquired b k.toNat v.toNat scope.toNat)) ∧
       (((s.bead b).counter k.toNat).toNat < v.toNat →
         ((t.bead b).ctx c).waiting = some ⟨k.toNat, v.toNat, scope.toNat⟩ ∧ ((t.bead b).ctx c).known = x.known ∧
           t.issues b c = false)) ∧
     (s.mayIssue b c (.rest b c) = true → Runs (.rest b c) s fun t => OnlyBead b s t ∧ (t.bead b).filler = [] ∧ (t.bead b).ctx c = x.next ∧
       (∀ d, d ≠ c → (t.bead b).ctx d = (s.bead b).ctx d) ∧
       { t.bead b with ctxs := (s.bead b).ctxs, filler := (s.bead b).filler } = ((s.took b c).bead b))) ∧
  (∀ (s : State) (b : BeadId) (k : Nat),
     let n := (s.bead b).counter k
     let t := s.bump b k
     (n ≠ 0xFFFF#16 → OnlyBead b s t ∧ (t.bead b).counter k = n + 1 ∧
       (∀ j, j ≠ k → (t.bead b).counter j = (s.bead b).counter j) ∧
       (∀ c, c < 8 → ∀ w, ((s.bead b).ctx c).waiting = some w →
         (t.bead b).ctx c = if w.counter = k ∧ w.value ≤ n.toNat + 1 then
             { (s.bead b).ctx c with
               waiting := none, known := ((s.bead b).ctx c).known.join ((s.bead b).acquired b k w.value w.scope) }
           else (s.bead b).ctx c) ∧
       (∀ c, ((s.bead b).ctx c).waiting = none → (t.bead b).ctx c = (s.bead b).ctx c)) ∧
     (n = 0xFFFF#16 → OnlyFrame b.frame s t ∧
       (t.frame b.frame).counters.evtSat = min ((s.frame b.frame).counters.evtSat + 1) 0xFFFFFFFF)) ∧
  (∀ (b : BeadId) (c : Nat) (k : BitVec 5) (r : BitVec 4) (scope : BitVec 3) (s : State) (f : Firing) (st : Step),
     ctxOk b c = true → s.mayIssue b c (.signal b c k r scope) = true → s.stepOf b = some (f, st) →
     let x := (s.bead b).ctx c
     let u := (s.took b c).setCtx b c x.next
     let d := BeadId.ofRef ((x.reg r).toNat % 2 ^ 32)
     (scope ≠ 4 → d.ok = true → f.rods.contains d.rod = true → x.known = Known.none →
       exec (.signal b c k r scope) s = .next (u.bump d k.toNat)) ∧
     (scope ≠ 4 → d.ok = true → f.rods.contains d.rod = true → x.known ≠ Known.none →
       exec (.signal b c k r scope) s = .next ((u.modBead d fun y => { y with
         releases := y.releases ++ [(k.toNat, ⟨((u.bead d).counter k.toNat).toNat + 1, scope.toNat, b, x.known⟩)] }).bump d k.toNat)) ∧
     (scope = 4 → s.twin.paired = true → d.ok = true →
       exec (.signal b c k r scope) s = .next (u.sendPair ⟨d, k.toNat, x.known, false, b, c⟩)))

/-! ## Matrix arrays and coils -/

/-- R129 to R134, R186: where no MMA, no LAND and no earlier read of its bank waits, an MMA with its weight in scratch performs
all its k-steps: every cell of a named array's bank that lies in a region of PACK ends with the k-steps' products added in
order, from 0 with CLEAR and from its old value without; every other cell of the bead is unchanged. `u` is the state with the
MMA's units charged (R138). R129, R131, R186: a k-step of an INT8 MMA adds the product of two signed bytes to an INT32 cell, and
one of an INT4 MMA adds two products of signed nibbles; the sum is held to the INT32 range. -/
def Obligations.MmaAccumulates : Prop :=
  (∀ (b : BeadId) (c : Nat) (m : MmaFields) (s u : State) (f : Firing) (st : Step),
     ctxOk b c = true → s.mayIssue b c (.mma b c m) = true → s.stepOf b = some (f, st) → (s.bead b).mmas = [] → m.wsrc = false →
     (∀ p, ((s.bead b).port p).uses = []) → (∀ job : MmaJob, job.f = m → (s.bead b).readsDone job = true) → s.chargeFiring f b.frame 3 (mmaUnits m) = some u →
     let x := (s.bead b).ctx c
     Runs (.mma b c m) s fun t =>
       (t.bead b).ctx c = x.next ∧ (t.bead b).filler = [] ∧ t.mem = s.mem ∧
       ∀ a bank i j, a < 2 → bank < 2 → i < 8 → j < 8 →
         (t.bead b).cell a bank i j =
           if mmaArray m a = true ∧ bank = m.bank.toNat ∧ inRegion m.pack.toNat i j = true then
             (List.range (m.k.toNat + 1)).foldl (fun v k =>
               cellStep m.fmt.toNat (weightFmt m) v
                 (cellPairs m.fmt.toNat i j
                   (s.operandElems b m.fmt.toNat (x.reg (if a = 0 then m.a0 else m.a1)) m.ta k)
                   (s.operandElems b (weightFmt m) (x.reg m.w) m.tw k)))
               (if m.clear then 0 else (s.bead b).cell a bank i j)
           else (s.bead b).cell a bank i j) ∧
  (∀ (old : Word32) (a w a' w' : BitVec 8),
     let clamp := fun v : Int => if v < -2147483648 then -2147483648 else if 2147483647 < v then 2147483647 else v
     (cellStep 2 2 old [(a.toNat, w.toNat)]).toInt = clamp (old.toInt + a.toInt * w.toInt) ∧
     (∀ p q p' q' : BitVec 4, (cellStep 4 4 old [(p.toNat, q.toNat), (p'.toNat, q'.toNat)]).toInt =
       clamp (old.toInt + (p.toInt * q.toInt + p'.toInt * q'.toInt))) ∧
     cellPairs 2 1 2 [0, a.toNat] [0, 0, w.toNat] = [(a.toNat, w.toNat)] ∧
     cellPairs 4 0 1 [a.toNat, a'.toNat] [0, 0, w.toNat, w'.toNat] = [(a.toNat, w.toNat), (a'.toNat, w'.toNat)])

/-- R139, R142: an MMA with its weight from a coil port, or behind another MMA, is queued behind what the bead holds; with two
queued an MMA holds its context and changes nothing. R133, R137: an MMA whose k-steps are done leaves its queue and gives its
event; with none left the arrays of the bead start 64 fillers. After 64 fillers an array is idle. Choices of the model that this
rests on: logs 4, 11. -/
def Obligations.MmaQueuesAndCompletes : Prop :=
  (∀ (b : BeadId) (c : Nat) (m : MmaFields) (s : State) (f : Firing) (st : Step),
     ctxOk b c = true →
     (∀ u, s.mayIssue b c (.mma b c m) = true → s.stepOf b = some (f, st) → s.chargeFiring f b.frame 3 (mmaUnits m) = some u →
       Runs (.mma b c m) s fun t =>
         ((t.bead b).mmas.map fun j => j.f) = ((s.bead b).mmas.map fun j => j.f) ++ [m]) ∧
     (2 ≤ (s.bead b).mmas.length → exec (.mma b c m) s = .next s)) ∧
  (∀ (b : BeadId) (s : State) (job : MmaJob), b.ok = true → s.up = true → (s.bead b).mmas = [job] →
     job.f.k.toNat < job.done → (∀ p, ((s.bead b).port p).uses = []) →
     exec (.mmaComplete b) s = .next
       ((s.setBead b { s.bead b with mmas := [], filler := [(0, 64), (1, 64)] }).event b job.f.evt.toNat job.f.evtEn) ∧
     ∀ array, array < 2 → Runs (.fillerExpire b array) s fun t => OnlyBead b s t ∧
       Sparse.read 0 (t.bead b).filler array = 0 ∧
       (∀ a, a ≠ array → Sparse.read 0 (t.bead b).filler a = Sparse.read 0 (s.bead b).filler a) ∧
       { t.bead b with filler := (s.bead b).filler } = s.bead b)

/-- R144: LAND copies the next COUNT retained flits of its port to scratch: with as many retained as it wants and no one ahead
of it, they are there, at the offset in its register, in order, and have left the port; no other byte of scratch changes. R141,
R142: a bead of a coil accepts its next flit of an origin once the bead before it has it and its port has room for a flit it
must retain; it retains the flits its entry names and keeps no other. On a chain it accepts none while the bead after it lacks
one that it has accepted already: the slowest bead sets the pace. -/
def Obligations.CoilLandCopiesRetainedFlits : Prop :=
  (∀ (b : BeadId) (c : Nat) (k : CoilFields) (s : State) (f : Firing) (st : Step) (e : CoilEntry) (fs rest : List CoilFlit),
     ctxOk b c = true → s.mayIssue b c (.coilLand b c k) = true → s.stepOf b = some (f, st) →
     f.img.coil k.coilId.toNat = some e → e.port < 2 → (s.bead b).mmas = [] → (∀ p, ((s.bead b).port p).uses = []) → ((s.bead b).port e.port).landed = [] →
     ((s.bead b).port e.port).flits = fs ++ rest → fs.length ≤ 4 → (∀ g ∈ fs, g.data.length = 64) →
     k.count.toNat = fs.length →
     let off := (((s.bead b).ctx c).reg k.addr).toNat
     off + 64 * fs.length ≤ 16384 →
     Runs (.coilLand b c k) s fun t =>
       t.scratchBytes b off (64 * fs.length) = (fs.map fun g => g.data).flatten ∧
       ((t.bead b).port e.port).flits = rest ∧
       ((t.bead b).port e.port).landed = [⟨k.evt.toNat, k.evtEn⟩] ∧ (t.bead b).ctx c = ((s.bead b).ctx c).next ∧
       ∀ a, (a < scratchKey b off ∨ scratchKey b off + 64 * fs.length ≤ a) →
         t.mem.scratch.get a = s.mem.scratch.get a) ∧
  (∀ (handle coil origin i : Nat) (s : State) (f : Firing) (e : CoilEntry) (p : CoilTake),
     s.up = true → s.firing handle = some f → f.img.coil coil = some e → e.beads[i]? = some p →
     (s.bead p.bead).mmas = [] → (∀ q, ((s.bead p.bead).port q).uses = []) →
     let n := (f.pass coil).got origin i
     (e.kind ≠ 1 → i + 1 < e.beads.length → (f.pass coil).got 0 (i + 1) < (f.pass coil).got 0 i →
       exec (.coilFlitAccept handle coil origin i) s = .next s) ∧
     (coilReady e (f.pass coil) ((s.bead p.bead).port e.port) origin i = true → Runs (.coilFlitAccept handle coil origin i) s fun t =>
       (((t.bead p.bead).port e.port).flits = ((s.bead p.bead).port e.port).flits ++
         if e.retains i n then [⟨flitAt ((f.pass coil).flitsOf origin) n, 0⟩] else []) ∧
       t.mem = s.mem ∧
       (coilEnded e { (f.pass coil) with accepted := Sparse.write 0 (f.pass coil).accepted (passKey origin i) (n + 1) } = false →
         ∃ g, t.firing handle = some g ∧ (g.pass coil).got origin i = n + 1)))

/-- R142, R143: INJECT by the head of a chain, or by any bead of a ring, puts the flits of its source into the pass, and its
context goes on; the coil units of the pass are charged (R138). `u` is the state with the units charged. R144: an INJECT
completes when its bead has sent the last flit of its pass, a LAND when its flits are in scratch: the job leaves its list and
its event, if enabled, counts. Choices of the model that this rests on: logs 4, 106. -/
def Obligations.CoilInjectSendsSource : Prop :=
  (∀ (b : BeadId) (c i : Nat) (k : CoilFields) (s u : State) (f : Firing) (st : Step) (e : CoilEntry),
     ctxOk b c = true → s.mayIssue b c (.coilInject b c k) = true → s.stepOf b = some (f, st) →
     f.img.coil k.coilId.toNat = some e → e.indexOf b = some i → (0 < e.passBytes / 64 → coilEnded e (f.pass e.id) = false) →
     (e.kind = 1 ∨ e.srcSpace = 1 ∨ u.pinBad f.pins e.source e.passBytes = none) →
     s.chargeFiring f b.frame 2 (e.passBytes / 64) = some u → s.firing f.handle = some f →
     Runs (.coilInject b c k) s fun t =>
       (∃ g, t.firing f.handle = some g ∧ (g.pass e.id).flitsOf i = u.coilSource f e b) ∧
       (t.bead b).injects = (u.bead b).injects ++ [⟨e.id, k.evt.toNat, k.evtEn⟩] ∧
       (t.bead b).ctx c = ((s.bead b).ctx c).next ∧ t.mem = s.mem) ∧
  (∀ (b : BeadId) (s : State), b.ok = true → s.up = true →
     (∀ (j : CoilInj) (rest : List CoilInj) (f : Firing) (st : Step) (e : CoilEntry) (i : Nat),
       (s.bead b).injects = j :: rest → s.stepOf b = some (f, st) → f.img.coil j.coil = some e → e.indexOf b = some i →
       injectSent e (f.pass e.id) i = true →
       exec (.coilComplete b 0) s = .next ((s.setBead b { s.bead b with injects := rest }).event b j.evt j.evtEn)) ∧
     (∀ (p : Nat) (d : VecDone) (rest : List VecDone), p < 2 → ((s.bead b).port p).landed = d :: rest →
       exec (.coilComplete b (p + 1)) s = .next
         ((s.setBead b ((s.bead b).setPort p { (s.bead b).port p with landed := rest })).event b d.evt d.evtEn)))

/-! ## The vector engine -/

/-- R139, R147, R148, R152, R162, R163: a VEC instruction with CLEN ≥ 1 opens a chain of its context and reserves CLEN + 1
entries, so none issues that would take more than 4, and the later stages join it; nothing runs before the last has been issued.
A chain whose stages are all issued and whose banks are free then runs them in order, with its chaining buffers empty at its
start and at its end, and one that is not stays as it is. The oldest VEC instruction whose destination is written gives its
entry back, and its event. Choices of the model that this rests on: logs 12, 107. -/
def Obligations.VecChainReservesAndCompletes : Prop :=
  ∀ (b : BeadId) (c clen : Nat) (v : VecFields) (s : State), ctxOk b c = true →
    let x := (s.bead b).ctx c
    let job : VecJob := ⟨0x01, v, c, x, (s.bead b).issued + 1⟩
    (s.fetch b c = some (.vec 0x01 clen v) → (s.bead b).vec.opened c = false →
      (4 < (s.bead b).vec.entries + (clen + 1) → exec (.vadd b c v) s = .next s) ∧
      (∀ f st u, 0 < clen → s.mayIssue b c (.vadd b c v) = true → s.stepOf b = some (f, st) →
        s.chargeFiring f b.frame 4 ((v.n.toNat + 64) / 64) = some u → Runs (.vadd b c v) s fun t => OnlyBead b u t ∧
          t.bead b = ({ (u.took b c).bead b with vec := { (s.bead b).vec with
            chains := (s.bead b).vec.chains ++ [⟨c, clen, [job]⟩] } } : Bead).setCtx c x.next ∧
          (t.bead b).vec.entries = (s.bead b).vec.entries + (clen + 1))) ∧
    (∀ f st u k rest, s.mayIssue b c (.vadd b c v) = true → s.stepOf b = some (f, st) →
      s.chargeFiring f b.frame 4 ((v.n.toNat + 64) / 64) = some u →
      (s.bead b).vec.chains = k :: rest → k.ctx = c → 2 ≤ k.left → (∀ q ∈ rest, q.ctx ≠ c ∨ q.left = 0) →
      Runs (.vadd b c v) s fun t => OnlyBead b u t ∧
        (t.bead b).vec.chains = { k with left := k.left - 1, jobs := k.jobs ++ [job] } :: rest ∧ (t.bead b).ctx c = x.next ∧
        (t.bead b).vec.entries = (s.bead b).vec.entries) ∧
    (∀ k rest c' n, s.up = true → (s.bead b).vec.chains = k :: rest →
      (c' < 8 → k.left ≠ 0 ∨ k.ctx ≠ c' ∨ k.jobs.length ≠ n ∨ (∃ j ∈ k.jobs, (s.bead b).bankFree j = false) →
        exec (.vecChainStart b c' n) s = .next s) ∧
      (c' < 8 → k.left = 0 → k.ctx = c' → k.jobs.length = n → (∀ j ∈ k.jobs, (s.bead b).bankFree j = true) →
        let start := s.setBead b { s.bead b with vec := { (s.bead b).vec with chains := rest, buffers := [] } }
        let fin := k.jobs.foldl (fun t j => t.runStage b j) start
        exec (.vecChainStart b c' n) s = .next ((fin.setBead b { fin.bead b with vec := { (fin.bead b).vec with buffers := [] } }).runPorts b))) ∧
    (∀ (d : VecDone) (rest : List VecDone), s.up = true → (s.bead b).vec.done = d :: rest →
      exec (.vecComplete b) s = .next ((s.setBead b { s.bead b with vec := { (s.bead b).vec with
        done := rest } }).event b d.evt d.evtEn))

/-- A VEC instruction is the next of context `c` and a chain of its own with no chain before it, no MMA issued before it works on the
bank it reads, and `u` is the state with its units charged. -/
def StageReady (i : Instr) (b : BeadId) (c : Nat) (v : VecFields) (s u : State) : Prop :=
  ctxOk b c = true ∧ s.mayIssue b c i = true ∧ s.clenAt b c = 0 ∧ (s.bead b).vec.chains = [] ∧
    (∀ j : VecJob, j.v = v → j.regs = (s.bead b).ctx c → (s.bead b).bankFree j = true) ∧
    ∃ f st, s.stepOf b = some (f, st) ∧ s.chargeFiring f b.frame 4 ((v.n.toNat + 64) / 64) = some u

/-- The state in which the stage of such a chain does its work: its context has gone on, and the chaining buffers are empty. -/
def stageStart (b : BeadId) (c : Nat) (u : State) : State :=
  u.setBead b (({ (u.took b c).bead b with vec := { (u.bead b).vec with buffers := [] } } : Bead).setCtx c ((u.bead b).ctx c).next)

/-- What the stage works on: the registers that its context had at issue. -/
def stageEnv (b : BeadId) (c op : Nat) (v : VecFields) (u : State) : VecEnv :=
  ⟨b, (u.bead b).ctx c, v, (stageStart b c u).vecInt b ((u.bead b).ctx c) op v, u.free⟩

/-- The stage runs: its effect is `P`, and then the takers of the bead's ports and its arrays go on with what they have. -/
def StageTo (i : Instr) (b : BeadId) (s : State) (P : State → Prop) : Prop := ∃ t : State, exec i s = .next (t.runPorts b) ∧ P t

/-- The stage does the work `g` gives: memory is as `g` leaves it, what it raised is in the exception word, its completion is due, its
context goes on, and the chaining buffers are empty again. -/
def StageRuns (i : Instr) (b : BeadId) (c op : Nat) (v : VecFields) (g : State → VecEnv → State × Flags) : Prop :=
  ∀ s u : State, StageReady i b c v s u →
    let r := g (stageStart b c u) (stageEnv b c op v u)
    StageTo i b s fun t =>
      t.mem = r.1.mem ∧ (t.bead b).ctx c = ((s.bead b).ctx c).next ∧
      (t.bead b).exc = excAfter (r.1.bead b).exc r.2 op c ∧ (t.bead b).hist = (r.1.bead b).hist ∧
      (t.bead b).acc = (s.bead b).acc ∧ (t.bead b).vec.chains = [] ∧ (t.bead b).vec.buffers = [] ∧
      (t.bead b).vec.done = (r.1.bead b).vec.done ++ [⟨v.evt.toNat, v.evtEn⟩] ∧
      (t.frame b.frame).counters.vecAddr =
        (if r.2.addr then min ((s.frame b.frame).counters.vecAddr + 1) 0xFFFFFFFF else (s.frame b.frame).counters.vecAddr)

/-- The stage writes `val e` as result element `e`, for every selected element (R166). -/
def MapsElements (i : Instr) (b : BeadId) (c op : Nat) (v : VecFields) (val : State → VecEnv → Nat → Read) : Prop :=
  StageRuns i b c op v fun s env =>
    let r := s.elements env (val s env)
    let w := s.writeDst env r.1
    (w.1, r.2.or w.2)

/-- The result on two operands: in INT32 saturated (R157), in FP32 rounded once (R157, R185). -/
def twoOperands (fi : Int → Int → Int) (ff : Val → Val → Val) (s : State) (v : VecEnv) (e : Nat) : Read :=
  let a := s.opA v e
  let b := s.opB v e
  let r := if v.isInt then intResult (fi a.1.toInt b.1.toInt) else fpResult [a.1.val, b.1.val] (ff a.1.val b.1.val)
  (r.1, (a.2.or b.2).or r.2)

/-- The result on one operand. -/
def oneOperand (fi : Int → Int) (ff : Val → Val) (s : State) (v : VecEnv) (e : Nat) : Read :=
  let a := s.opA v e
  let r := if v.isInt then intResult (fi a.1.toInt) else fpResult [a.1.val] (ff a.1.val)
  (r.1, a.2.or r.2)

/-- The result of a compare. -/
def truth (fi : Int → Int → Bool) (ff : Val → Val → Bool) (s : State) (v : VecEnv) (e : Nat) : Read :=
  let a := s.opA v e
  let b := s.opB v e
  (.int (bit (if v.isInt then fi a.1.toInt b.1.toInt
    else !a.1.val.isNan && !b.1.val.isNan && ff a.1.val b.1.val)), a.2.or b.2)

/-- R156, R157, R185: the result elements of VADD, VSUB, VMUL, VFMA, VABS, VNEG, VMOV, VSEL, the compares, and of VMAX and VMIN
but for two zeros of opposite sign and two NaNs. R156, R158, R171, R185: VEXP, VSIGM, VTANH and VGELU give the formula's value
rounded to FP32, or a value at most 2 units in the last place from it; VDIV and VRSQRT give the quotient and the inverse root,
with DIVZERO for a zero divisor and INVALID for an undefined result. Choices of the model that this rests on: logs 13, 24, 32.
-/
def Obligations.VecArithmeticElements : Prop :=
  (∀ (b : BeadId) (c : Nat) (v : VecFields),
     MapsElements (.vadd b c v) b c 0x01 v (twoOperands (fun x y => x + y) Val.add) ∧
     MapsElements (.vsub b c v) b c 0x02 v (twoOperands (fun x y => x - y) fun x y => x.add y.flip) ∧
     MapsElements (.vmul b c v) b c 0x03 v (twoOperands (fun x y => x * y) Val.mul) ∧
     MapsElements (.vfma b c v) b c 0x04 v (fun s v e =>
       let x := s.opA v e
       let y := s.opB v e
       let z := s.opC v e
       let r := fpResult [x.1.val, y.1.val, z.1.val] ((x.1.val.mul y.1.val).add z.1.val)
       (r.1, (x.2.or (y.2.or z.2)).or r.2)) ∧
     MapsElements (.vabs b c v) b c 0x07 v (oneOperand (fun x => x.natAbs) Val.abs) ∧
     MapsElements (.vneg b c v) b c 0x08 v (oneOperand (fun x => -x) Val.flip) ∧
     MapsElements (.vmov b c v) b c 0x09 v (oneOperand (fun x => x) fun x => x) ∧
     MapsElements (.vsel b c v) b c 0x10 v (fun s v e =>
       let x := s.opA v e
       let y := s.opB v e
       let z := s.opC v e
       let r := if z.1.val.isZero then y.1 else x.1
       (if v.isInt then r else Elem.ofVal r.val, x.2.or (y.2.or z.2))) ∧
     MapsElements (.vcmpgt b c v) b c 0x11 v (truth (fun x y => decide (y < x)) fun x y => y.lt x) ∧
     MapsElements (.vcmpge b c v) b c 0x12 v (truth (fun x y => decide (y ≤ x)) fun x y => !x.lt y) ∧
     MapsElements (.vcmpeq b c v) b c 0x13 v (truth (fun x y => decide (x = y)) Val.eq) ∧
     (∃ big small : State → VecEnv → Nat → Read,
       MapsElements (.vmax b c v) b c 0x05 v big ∧ MapsElements (.vmin b c v) b c 0x06 v small ∧
       ∀ s env e,
         (env.isInt = true →
           (big s env e).1 = (intResult (max (s.opA env e).1.toInt (s.opB env e).1.toInt)).1 ∧
           (small s env e).1 = (intResult (min (s.opA env e).1.toInt (s.opB env e).1.toInt)).1) ∧
         (env.isInt = false → let x := (s.opA env e).1.val
           let y := (s.opB env e).1.val
           (x.lt y = true → (big s env e).1 = Elem.ofVal y ∧ (small s env e).1 = Elem.ofVal x) ∧
           (y.lt x = true → (big s env e).1 = Elem.ofVal x ∧ (small s env e).1 = Elem.ofVal y) ∧
           (x.isNan = true → (big s env e).1 = Elem.ofVal y ∧ (small s env e).1 = Elem.ofVal y) ∧
           (x.isNan = false → y.isNan = true → (big s env e).1 = Elem.ofVal x ∧ (small s env e).1 = Elem.ofVal x)))) ∧
  (∀ (b : BeadId) (c : Nat) (v : VecFields),
     (∃ near : (Val → Val) → State → VecEnv → Nat → Read,
       MapsElements (.vexp b c v) b c 0x0C v (near expVal) ∧ MapsElements (.vsigm b c v) b c 0x0D v (near sigmVal) ∧
       MapsElements (.vtanh b c v) b c 0x0E v (near tanhVal) ∧
       ∀ f s env e, ∃ d : Int, -2 ≤ d ∧ d ≤ 2 ∧
         near f s env e = (Elem.ofVal (stepUlps (f (s.opA env e).1.val) d), (s.opA env e).2)) ∧
     (∃ gelu : State → VecEnv → Nat → Read, MapsElements (.vgelu b c v) b c 0x0F v gelu ∧
       ∀ s env e, ∃ d : Int, -2 ≤ d ∧ d ≤ 2 ∧
         gelu s env e = (Elem.ofVal (stepUlps (geluVal (s.opA env e).1.val).1 d),
           (s.opA env e).2.or (if (s.opA env e).1.val = .inf true then Flags.inv else Flags.none))) ∧
     MapsElements (.vdiv b c v) b c 0x0A v (fun s v e =>
       let r := divide (s.opA v e).1.val (s.opB v e).1.val (v.base + e)
       (Elem.ofVal r.1, ((s.opA v e).2.or (s.opB v e).2).or r.2)) ∧
     MapsElements (.vrsqrt b c v) b c 0x0B v (fun s v e =>
       let r := rsqrt (s.opA v e).1.val (v.base + e)
       (Elem.ofVal r.1, (s.opA v e).2.or r.2)) ∧
     (∀ (n : Nat) (x y : Bool) (m : Nat) (e e' : Int), 0 < m →
       divide (.fin x m e) (.fin y 0 e') n = (.inf (x != y), Flags.dz) ∧
       divide (.fin x 0 e) (.fin y 0 e') n = (.nan, Flags.inv) ∧
       divide (.fin x 0 e) (.fin y m e') n = (.fin (x != y) 0 0, Flags.none) ∧
       rsqrt (.fin x 0 e) n = (.inf x, Flags.dz) ∧ rsqrt (.fin true m e) n = (.nan, Flags.inv) ∧
       rsqrt (.inf true) n = (.nan, Flags.inv)))

/-- R156, R159, R160, R179, R180, R182: VDQ multiplies by the combined scale of its block; VDQR adds, for each column, the
dequantised elements of a pool of delivery records, a record with NULL (or, with ZP, PRESENCE) giving 0, and one that is not
whole and aligned inside scratch 0 with ADDR (R155, R171); VQB writes a glaze byte and 32 elements per block. VIDX reads A at
the index B, or gives 0 with INDEX (R156). R168: a reduction writes one result for each group of AUX + 1 elements, a masked
element taking the identity: in INT32 the sum, the largest, the smallest, the largest magnitude. Choices of the model that this
rests on: log 24. -/
def Obligations.VecRowElements : Prop :=
  (∀ (b : BeadId) (c : Nat) (v : VecFields),
     MapsElements (.vdq b c v) b c 0x18 v (fun s v e =>
       let a := s.opA v e
       let g := s.glazeB v (e / 32)
       let r := s.scaleC v
       let k := combined g.1 r.1
       let x := if k.isZero then (Elem.zero, Flags.none) else fpResult [a.1.val] (a.1.val.mul k)
       (x.1, (a.2.or (g.2.or r.2)).or x.2)) ∧
     (v.imm ≠ 0 → ∃ pooled : State → VecEnv → Nat → Read, MapsElements (.vdqr b c v) b c 0x19 v pooled ∧
       ∀ (s : State) (env : VecEnv) (e : Nat), env.v = v → v.aux.extractLsb' 0 8 = 0 →
         (pooled s env e).1 = Elem.ofVal
           (s.recordElem env v.imm.toNat (bit (v.aux.getLsbD 8)) (e / v.imm.toNat) (e % v.imm.toNat)).1) ∧
     (∀ (s : State) (env : VecEnv) (rows zp r j : Nat),
       let word := s.recordWord env.bead (((streamOf (env.ctx.reg env.v.a)).base : Int) +
         r * (streamOf (env.ctx.reg env.v.a)).stride * 8) (rows / 32)
       (∀ w, word = some w → bitAt w 21 = true ∨ (zp = 1 ∧ bitAt w 19 = true) → s.recordElem env rows zp r j = (.zero, Flags.none)) ∧
       (word = none → s.recordElem env rows zp r j = (.zero, Flags.adr))) ∧
     StageRuns (.vqb b c v) b c 0x1A v (fun s env =>
       (List.range ((v.n.toNat + 1) / 32)).foldl (fun acc k =>
         let r := acc.1.quantStage env k
         (r.1, acc.2.or r.2)) (s, Flags.none)) ∧
     MapsElements (.vidx b c v) b c 0x28 v (fun s v e =>
       let i := s.opIndex v e
       if 0 ≤ i.1 ∧ i.1 < v.v.imm.toInt then
         let a := s.opA v i.1.toNat
         (if v.isInt then a.1 else Elem.ofVal a.1.val, i.2.or a.2)
       else (if v.isInt then .int 0 else Elem.zero, i.2.or Flags.idx))) ∧
  (∀ (b : BeadId) (c : Nat) (v : VecFields),
     ∃ sum top low mag : State → VecEnv → Nat → Read,
       let Reduces := fun (i : Instr) (op : Nat) (red : State → VecEnv → Nat → Read) =>
         StageRuns i b c op v fun s env =>
           let rs := (List.range ((v.n.toNat + 1) / (v.aux.toNat + 1))).map (red s env)
           let w := s.writeDst { env with v := { v with mzero := false } } (rs.map fun r => some r.1)
           (w.1, (rs.foldl (fun f r => f.or r.2) Flags.none).or w.2)
       Reduces (.vrsum b c v) 0x20 sum ∧ Reduces (.vrmax b c v) 0x21 top ∧ Reduces (.vrmin b c v) 0x22 low ∧
       Reduces (.vramax b c v) 0x23 mag ∧
       ∀ (s : State) (env : VecEnv) (g : Nat), env.isInt = true →
         let xs := fun id : Int => (s.groupElems env (v.aux.toNat + 1) g (.int id)).map fun x => x.1.toInt
         (sum s env g).1 = (intResult (xs 0).sum).1 ∧
         (top s env g).1 = (intResult ((xs (-2147483648)).foldl max (-2147483648))).1 ∧
         (low s env g).1 = (intResult ((xs 2147483647).foldl min 2147483647)).1 ∧
         (mag s env g).1 = (intResult (((xs 0).map fun x => (x.natAbs : Int)).foldl max 0)).1)

/-- R169, R420: VCHK writes the count of elements that fail and, where one does, trips the slots it names. R170, R188: VHIST adds
its elements to the bins of its unit while the unit is enabled on the frame (R187). R171: VSTAT writes the exception word as 8 B and sets it to 0. -/
def Obligations.VecChecksHistogramsAndStatus : Prop :=
  ∀ (b : BeadId) (c : Nat) (v : VecFields),
    (∀ (s u : State), StageReady (.vchk b c v) b c v s u → v.aux.getLsbD 1 = false →
      let w := stageStart b c u
      let env := stageEnv b c 0x30 v u
      let bad := ((List.range (v.n.toNat + 1)).filter fun e => (w.selected env e).1 &&
        outOfRange (w.opA env e).1.val (w.opB env e).1.val (w.opC env e).1.val).length
      StageTo (.vchk b c v) b s fun t =>
        t.mem = (w.writeDst { env with isInt := true } [some (.int bad)]).1.mem ∧
        (t.bead b).ctx c = ((s.bead b).ctx c).next ∧ (bad = 0 → t.parts = s.parts)) ∧
    (∀ (s : State) (h n entry k : Nat),
      let t := s.tripSlots h n entry false [k]
      (t.part n).rangeTrips = min ((s.part n).rangeTrips + 1) 0xFFFFFFFF ∧
      (t.part n).lastTrip = BitVec.ofNat 64 (h % 2 ^ 32 + entry % 4096 * 2 ^ 32 + k * 2 ^ 44)) ∧
    (∀ (s u : State) (f : Firing) (st : Step), StageReady (.vhist b c v) b c v s u → s.stepOf b = some (f, st) →
      let w := stageStart b c u
      let env := stageEnv b c 0x31 v u
      let unit := v.aux.toNat % 16
      let here := fun bin => ((List.range (v.n.toNat + 1)).filter fun e => (w.selected env e).1 && f.histOn b.frame unit &&
        decide (histBin (w.opA env e).1.val (f.histLowOf b.frame unit) = bin)).length
      StageTo (.vhist b c v) b s fun t => t.mem = s.mem ∧ ∀ bin, bin < 32 →
        Sparse.read 0 (t.bead b).hist (unit * 32 + bin) =
          if Sparse.read 0 (s.bead b).hist (unit * 32 + bin) ≤ 0xFFFFFFFF then
            min (Sparse.read 0 (s.bead b).hist (unit * 32 + bin) + here bin) 0xFFFFFFFF
          else Sparse.read 0 (s.bead b).hist (unit * 32 + bin) + here bin) ∧
    (∀ (s u : State), StageReady (.vstat b c v) b c v s u →
      let t0 := streamOf (((s.bead b).ctx c).reg v.dst)
      t0.base % 8 = 0 → t0.base + 8 ≤ 16384 →
      StageTo (.vstat b c v) b s fun t => (t.bead b).exc = 0 ∧
        t.scratchBytes b t0.base 8 = leBytes 8 (s.bead b).exc.toNat)

/-- R154, R157, R166, R184: the results of a stage go to an aligned FP32 or INT32 stream of stride 1 inside scratch: element e
holds its result, converted; a masked element stays, or becomes 0 with MZERO; no other byte of scratch changes. -/
def Obligations.VecStreamWrite : Prop :=
  ∀ (s : State) (b : BeadId) (base fmt : Nat) (mzero : Bool) (rs : List (Option Elem)),
    (fmt = 7 ∨ fmt = 8) → base % 4 = 0 → base + 4 * rs.length ≤ 16384 →
    let t := s.writeStream b ⟨base, false, 1, fmt⟩ mzero 0 rs
    (∀ (e : Nat) (r : Option Elem), rs[e]? = some r → t.1.scratchNat b (base + 4 * e) 4 =
      match r with
      | some v => if fmt = 7 then v.val.code32.toNat else
          match v with
          | .int i => intCode 32 (satInt 32 i).1
          | .fp w => (convertInt 32 (val32 w)).1
      | none => if mzero then 0 else s.scratchNat b (base + 4 * e) 4) ∧
    (∀ a, (a < scratchKey b base ∨ scratchKey b base + 4 * rs.length ≤ a) → base < 16384 →
      t.1.mem.scratch.get a = s.mem.scratch.get a) ∧
    { t.1 with mem := s.mem } = s

/-! ## Numbers -/

/-- R173, R184: for every code of FP32, FP16, BF16, FP8 E5M2, FP8 E4M3 and FP4 E2M1 that is no NaN, converting its value to the
format gives the code back, and raises nothing. R177, R182: the glaze byte chosen for a block is the smallest code whose scale,
with the row scale, takes the block's largest magnitude to at most the format's largest; with none so large it is 0xFF. -/
def Obligations.FormatsAndGlazeCodes : Prop :=
  (∀ f ∈ [fp32F, fp16F, bf16F, e5m2F, e4m3F, e2m1F], ∀ code, code < 2 ^ f.width → (f.decode code).isNan = false →
     convertFp f (f.decode code) = (code, Flags.none)) ∧
  (∀ (f : Fmt) (rowScale : Nat) (n : Bool) (m : Nat) (e : Int),
     let mag : Val := .fin n m e
     let g := chooseGlaze f rowScale mag
     let fits := fun c : Nat => !((qmaxVal f).mul ((glazeVal c).mul (rowScaleVal rowScale))).lt mag
     g ≤ 0xFF ∧ (∀ c, c < g → fits c = false) ∧ (g < 0xFF → fits g = true))

/-! ## Movers -/

/-- The bytes of a place in scratch or in a rod pool. -/
def localBytes (s : State) (n : Nat) : MvPlace → List Byte
  | .scratch b off => s.scratchBytes b off n
  | .pool r off => s.poolBytes r off n
  | _ => []

/-- A range of `n` bytes that lies inside one scratch or one rod pool. -/
def localRange (n : Nat) : MvPlace → Prop
  | .scratch _ off => off + n ≤ 16384
  | .pool _ off => off + n ≤ 65536
  | _ => False

/-- R124, R125, R126, R139: an MV on channels 0 to 2 puts one request, with the addresses and the length its registers hold, at
the end of its rod's channel; a request with a space-2 range outside the firing's PIN regions moves nothing (it is dead), raises
BEAD_PIN_ERRS and faults the step. At a limit the context is held. An MV on channel 3 starts a mover program entry. R118, R124,
R125: the oldest request of channels 0 to 2 is performed: its destination holds the bytes its source held, in scratch or rod
pool; nothing else of memory changes; the request leaves its channel and gives its event. R228, R230, R240, R241: an error that
a read finds on a burst that it reads, and that is not known to be bad already, counts on the burst's frame: a corrected one in
MEM_CE_COUNT, with nothing else; an uncorrectable one in MEM_UE_COUNT, and the burst is poisoned. Errors on bursts that are not
read change nothing, and no contents of memory change. Choices of the model that this rests on: logs 21, 31, 114. -/
def Obligations.MvQueuesAndMovesBytes : Prop :=
  (∀ (b : BeadId) (c : Nat) (m : MvFields) (s : State) (f : Firing) (st : Step),
     ctxOk b c = true → s.stepOf b = some (f, st) →
     let x := (s.bead b).ctx c
     let len := (x.reg m.len).toNat
     let src := placeIn f b m.srcSpace.toNat (x.reg m.src)
     let dst := placeIn f b m.dstSpace.toNat (x.reg m.dst)
     let ok := f.pinOk src len && f.pinOk dst len
     let reqs := (s.chan b.rod m.channel.toNat).reqs
     (m.channel ≠ 3 → s.mayIssue b c (.mv b c m) = true → Runs (.mv b c m) s fun t =>
       (t.chan b.rod m.channel.toNat).reqs =
         reqs ++ [⟨f.handle, b, .copy [⟨src, dst, len, none⟩], m.evt.toNat, m.evtEn, !ok, Known.none⟩] ∧
       (t.bead b).mvs = (s.bead b).mvs + 1 ∧ (t.bead b).ctx c = x.next ∧ t.mem = s.mem ∧
       (t.frame b.frame).counters.pinErrs =
         (if ok then (s.frame b.frame).counters.pinErrs else min ((s.frame b.frame).counters.pinErrs + 1) 0xFFFFFFFF) ∧
       (ok = true → t.firings = s.firings)) ∧
     (16 ≤ reqs.length ∨ (m.channel ≠ 3 ∧ 8 ≤ (s.bead b).mvs) → exec (.mv b c m) s = .next s) ∧
     (m.channel = 3 → s.mayIssue b c (.mv b c m) = true → exec (.mv b c m) s = .next
       (((s.took b c).setCtx b c x.next).pushReq b.rod 3
         ⟨f.handle, b, .copy (s.entryCopies f st b.rod m.prog.toNat), m.evt.toNat, m.evtEn, false, Known.none⟩))) ∧
  (∀ (r : RodId) (channel len : Nat) (s u : State) (f : Firing) (st : Step) (q : MvReq) (rest : List MvReq)
     (src dst : MvPlace) (host : List Byte) (found : List BurstFound),
     r.ok = true → channel < 3 → s.up = true → (s.chan r channel).reqs = q :: rest → (s.chan r channel).stalled = false →
     q.dead = false → q.kind = .copy [⟨src, dst, len, none⟩] → s.firing q.handle = some f → f.step = some st → st.allKilled = false →
     s.awaits r = false → 0 < len → localRange len src → localRange len dst → s.chargeCopy f r.frame len 0 0 = .ok u →
     Runs (.mvComplete r channel host found) s fun t =>
       localBytes t len dst = localBytes s len src ∧ (t.chan r channel).reqs = rest ∧
       (t.bead q.bead).mvs = (s.bead q.bead).mvs - 1 ∧ t.mem.dram = s.mem.dram ∧ t.mem.side = s.mem.side ∧
       (∀ a, (∀ b off, dst = .scratch b off → a < scratchKey b off ∨ scratchKey b off + len ≤ a) →
         t.mem.scratch.get a = s.mem.scratch.get a) ∧
       (∀ a, (∀ b off, dst = .pool b off → a < poolKey b off ∨ poolKey b off + len ≤ a) →
         t.mem.pool.get a = s.mem.pool.get a) ∧
       (q.evtEn = true → (s.bead q.bead).counter q.evt ≠ 0xFFFF#16 →
         (t.bead q.bead).counter q.evt = (s.bead q.bead).counter q.evt + 1)) ∧
  (∀ (s : State) (reads : List Unit64) (u : Unit64) (found : List BurstFound),
     let one := fun check => s.findErrors reads [⟨u.frame, u.tier, u.num, check⟩]
     ((one .clean) = s) ∧
     (reads.contains u = false ∨ s.badBurst u = true → ∀ check, one check = s) ∧
     (reads.contains u = true → s.badBurst u = false → OnlyFrame u.frame s (one .correctable) ∧
       ((one .correctable).frame u.frame).counters =
         { (s.frame u.frame).counters with memCe := min ((s.frame u.frame).counters.memCe + 1) 0xFFFFFFFF }) ∧
     (reads.contains u = true → s.badBurst u = false → (one .uncorrectable).badBurst u = true ∧
       ((one .uncorrectable).frame u.frame).counters =
         { (s.frame u.frame).counters with memUe := min ((s.frame u.frame).counters.memUe + 1) 0xFFFFFFFF }) ∧
     (s.findErrors reads found).mem.dram = s.mem.dram ∧ (s.findErrors reads found).mem.side = s.mem.side ∧
     (s.findErrors reads found).mem.scratch = s.mem.scratch ∧ (s.findErrors reads found).mem.pool = s.mem.pool ∧
     (s.findErrors reads found).cmds = s.cmds ∧ (s.findErrors reads found).firings = s.firings)

/-- R276, R280, R282, R284: FAULT_RESOLVE ends an open entry of a translation fault and lets its waiters go on, FAULT_ABORT ends
one and makes them abandon; both are refused with DETAIL 0x15 where the partition has no such entry, and FAULT_RESOLVE for a
miss fault, which the kiln resolves. FAULT_QUERY writes the entry's waiter count and frames, 16 B, to pinned memory. R276, R483:
the kiln resolves a miss fault once its row can be read, and aborts it where neither copy in tier F can be read or the entry of
a position holds CLASS 3; it touches no other fault, and waits while neither holds. -/
def Obligations.FaultsAreResolved : Prop :=
  (∀ (c : Nat) (s : State) (x : Cmd),
     (∀ e, Ready s c 0x18 x → s.faultEntry x.port (x.op0.toNat % 2 ^ 32) = some e → e.kind ≠ 0x05 → e.kind ≠ 0x06 →
       e.answered = false → exec (.faultResolve c) s = .next ((s.resolveEntry x.port e).complete c 0 0 0)) ∧
     (∀ e, Ready s c 0x18 x → s.faultEntry x.port (x.op0.toNat % 2 ^ 32) = some e → (e.kind = 0x05 ∨ e.kind = 0x06) →
       exec (.faultResolve c) s = .next (s.complete c 1 0x15 0)) ∧
     (∀ e, Ready s c 0x19 x → s.faultEntry x.port (x.op0.toNat % 2 ^ 32) = some e → e.answered = false →
       exec (.faultAbort c) s = .next ((s.abortEntry x.port e).complete c 0 0 0)) ∧
     (Ready s c 0x18 x → s.faultEntry x.port (x.op0.toNat % 2 ^ 32) = none →
       exec (.faultResolve c) s = .next (s.complete c 1 0x15 0)) ∧
     (Ready s c 0x19 x → s.faultEntry x.port (x.op0.toNat % 2 ^ 32) = none →
       exec (.faultAbort c) s = .next (s.complete c 1 0x15 0)) ∧
     (∀ e pins, Ready s c 0x1A x → s.faultEntry x.port (x.op0.toNat % 2 ^ 32) = some e →
       s.outputPins x.port x.op1.toNat 16 = some pins → s.twin.role < 2 →
       exec (.faultQuery c) s = .next ((s.pinWrite pins x.op1.toNat
         (leBytes 4 e.waiters.length ++ leBytes 4 (s.waiterFrames x.port e) ++ leBytes 8 0)).complete c 0 0 0)) ∧
     (∀ (n : Nat) (e : FaultEntry), (s.part n).faults.entries = [e] → (s.part n).faults.stalled = [] →
       (s.port n).state ≠ 2 → ((s.retireFault n e.id).part n).faults.entries = [])) ∧
  (∀ (n id : Nat) (s : State) (e : FaultEntry), n < 4 → s.up = true → s.faultEntry n id = some e →
     (e.kind = 0x05 ∨ e.kind = 0x06 →
       (s.missState e = .lost → exec (.kilnFaultResolve n id false) s = .next (s.abortEntry n e)) ∧
       (s.missState e = .ready → exec (.kilnFaultResolve n id true) s = .next (s.resolveEntry n e)) ∧
       (∀ readable, s.missState e ≠ (if readable then .ready else .lost) → exec (.kilnFaultResolve n id readable) s = .next s)) ∧
     (∀ t r, s.anyTable e.row.1 = some t → t.rowAt e.row.2 = some r → s.entryBad r = false → (s.entryAt r).cls ≠ 3 →
       ((s.entryAt r).present = false → s.rowReady 0 r.shard.frame e.row.1 e.row.2 = false →
         (s.missState e = .lost ↔ s.extentRow (s.entryAt r).slot = none)) ∧
       (s.rowReady 0 r.shard.frame e.row.1 e.row.2 = true → s.opsReady e = true → s.missState e = .ready)) ∧
     (e.kind ≠ 0x05 → e.kind ≠ 0x06 → ∀ readable, exec (.kilnFaultResolve n id readable) s = .next s))

/-! ## Rows, gathers and promotions -/

/-- R54, R55, R56: a row written to a slot reads back with its glaze bytes and blocks; a directory entry's 8 bytes spell the
entry. -/
def Obligations.RowImageReadsBack : Prop :=
  (∀ (s : State) (u : Unit64) (img : RowImage) (blocks : Nat), img.glaze.length = blocks →
    img.blocks.length = blocks * blockBytes (clsNum img.cls) → (u.num + blocks) * 64 ≤ u.tier.bytes →
    (s.writeRow u img).readRow u (clsNum img.cls) blocks img.scale.toNat = img) ∧
  (∀ e : DirEntry, e.cls < 4 → e.slot < 2 ^ 32 → e.scale < 65536 → DirEntry.ofNat e.toNat = e)

/-- What a position of a list comes to. R68, R69, R72, R77: a null index gives a side record alone; an index of ROWS or above
gives the default row with PRESENCE and RANGE and bumps nothing; a resident row gives its record; a row that is not resident
gives, in serving, the default row with PRESENCE and a promotion request, and goes to a mover in training; run-ahead passes over a
position that is not resident. R65: an index that one of the list's last 64 positions holds in the row buffer gives the buffered
record with REPEAT. -/
def Obligations.GatherPositionOutlook : Prop :=
  ∀ (s : State) (f : Nat) (buffer : List BufferEntry) (x : ListState) (mode p : Nat) (t : Table) (sh : ShardEntry),
    s.tableFor x.l.handle f x.l.table = some t → t.shard 0 = some sh →
    let row := indexAt x.l p
    let got := s.outlook f buffer x mode p
    (row = 0xFFFFFFFF#32 → got = some ⟨some nullRecord, 4, false, false, 0, false⟩) ∧
    (row ≠ 0xFFFFFFFF#32 →
      (∀ bs, x.held buffer p = some bs → ∃ o, got = some o ∧ o.record = some (repeatRecord bs) ∧ o.promote = false) ∧
      (∀ bs, x.held buffer p = some bs → ∃ q, q < p ∧ p ≤ q + 64 ∧ (⟨x.num, q, row, bs⟩ : BufferEntry) ∈ buffer) ∧
      (∀ r, x.held buffer p = none → x.ahead.isSome = true → row.toNat < t.desc.rows → t.rowAt row.toNat = some r →
        s.entryBad r = false → (s.entryAt r).present = false → got = some ⟨none, 0, false, false, 0, false⟩) ∧
      (x.held buffer p = none → x.ahead = none →
        (t.desc.rows ≤ row.toNat → ∃ o, got = some o ∧ o.record = some (s.defaultRecord t sh row true).1 ∧
          o.units = t.desc.defaultUnits ∧ o.bump = false ∧ o.promote = false) ∧
        (∀ r, row.toNat < t.desc.rows → t.rowAt row.toNat = some r → s.entryBad r = false →
          let e := s.entryAt r
          (e.present = false → faultMode mode = false → ∃ o, got = some o ∧
            o.record = some (s.defaultRecord t r.shard row false).1 ∧ o.bump = true ∧ o.promote = true ∧
            o.units = t.desc.defaultUnits) ∧
          (e.present = false → faultMode mode = true → ∃ o, got = some o ∧ o.record = none ∧ o.bump = true ∧
            o.promote = false ∧ o.units = t.desc.defaultUnits) ∧
          (e.present = true → t.desc.badEntry e = false → s.rowBad (e.unit r.shard.frame) e.cls t.desc.blocks = false →
            ∃ o, got = some o ∧ o.record = some (s.rowRecord r e row false) ∧ o.bump = true ∧ o.promote = false ∧
              o.units = gatherUnits e.tier e.cls t.desc.blocks))))

/-- The list that a gather unit reads holds what the plan and the drawn indices say. -/
def Spells (l : IndexList) (handle plan : Nat) (q : PlanList) (indices : List Word32) : Prop :=
  l.handle = handle ∧ l.plan = plan ∧ l.table = q.table ∧ l.indices = indices ∧ l.perBead = q.perBead ∧
    l.destOffset = q.destOffset ∧ l.destStride = q.destStride ∧ l.firstPos = q.firstPos ∧ l.counter = q.counter

/-- The fields of a plan list fit the header of an index list (R59). -/
def PlanFits (q : PlanList) : Prop :=
  q.table < 65536 ∧ q.route < 65536 ∧ q.perBead < 65536 ∧ q.destOffset < 65536 ∧ q.destStride < 65536 ∧ q.firstPos < 2 ^ 32

/-- R60, R61, R64, R65, R70: a gather unit whose first list may be served writes the position's record into the scratch slot
that the list names for it and nowhere else in scratch, goes on to the next position, keeps the record in its row buffer, and
gives the done handshake to the list's counter when every slot of the bead is written. `w` is the state with the errors counted
that the position's reads find (R241), `u` that with its units charged. R51, R59, R79, R482: once in a step, the movers draw a
list of the plan from the request blocks of its batch slots, in slot order, and the gather unit of its shard receives the
indices that go there: those of the shard, and at shard 0 the null ones and those of ROWS or above. A slot without a command
gives null indices. R76, R225: while a step runs, a list of a command that the next step will take in the list's slot joins the
unit too, where the plan enables run-ahead, and the firing keeps it for that command. Choices of the model that this rests on:
logs 8, 26, 27, 95, 96. -/
def Obligations.GatherPositionDelivers : Prop :=
  (∀ (f unit off : Nat) (s u : State) (x : ListState) (g : Firing) (o : Outlook) (bs : List Byte) (d : BeadId)
     (found : List BurstFound),
     gatherOk f unit = true → s.up = true → (s.frame f).fenced = false → ((s.frame f).gatherUnit unit).lists = [x] →
     x.ahead = none → s.firing x.l.handle = some g →
     let p := s.nextPosition x
     let buffer := ((s.frame f).gatherUnit unit).bufferFor x
     let w := s.findErrors (s.positionReads f buffer x p) found
     p < x.l.indices.length → w.outlook f buffer x g.img.mode p = some o → o.record = some bs → o.poison = 0 →
     o.promote = false → destOf x.l p = some (d, off) → off + bs.length ≤ 16384 → w.chargeGather g f false o.units = some u →
     Runs (.gatherPosition f unit found) s fun t =>
       let y := x.after p false
       t.scratchBytes d off bs.length = bs ∧
       (∀ a, (a < scratchKey d off ∨ scratchKey d off + bs.length ≤ a) → t.mem.scratch.get a = s.mem.scratch.get a) ∧
       ((t.frame f).gatherUnit unit).lists = (if y.finished then [] else [y]) ∧
       ((t.frame f).gatherUnit unit).buffer =
         (if o.keep then (⟨x.num, p, indexAt x.l p, bs⟩ :: buffer).take 64 else buffer) ∧
       (o.bump = false → t.mem.dram = s.mem.dram) ∧
       (y.beadDone p = false → t.beads = s.beads) ∧
       (y.beadDone p = true → (s.bead d).counter x.l.counter ≠ 0xFFFF#16 →
         (t.bead d).counter x.l.counter = (s.bead d).counter x.l.counter + 1)) ∧
  (∀ (f unit plan : Nat) (s : State) (g : Firing) (q : PlanList) (t : Table) (host : List Byte),
     gatherOk f unit = true → s.up = true → (s.frame f).fenced = false → s.firing g.handle = some g →
     s.planFor g f unit plan = some (q, t) → PlanFits q →
     let lists := ((s.frame f).gatherUnit unit).lists
     (∀ i, t.desc.routes q.shard i = if i = 0xFFFFFFFF#32 ∨ t.desc.rows ≤ i.toNat then decide (q.shard = 0)
       else decide ((t.desc.shardOf i.toNat).1 = q.shard)) ∧
     (∀ st, g.step = some st →
       let slots := match q.slot with
         | some k => [k]
         | none => List.range g.img.batchSlots
       let d := s.drawBlocks g f q.table (slots.map fun k => s.slotVa g st k 0 false) host
       let mine := d.indices.filter (t.desc.routes q.shard)
       ((∀ k ∈ slots, s.slotVa g st k 0 false = none) → ∀ i ∈ d.indices, i = 0xFFFFFFFF#32) ∧
       (g.sent.contains plan = true ∨ d.translated = false → exec (.indexList f unit ⟨g.handle, plan, host⟩) s = .next s) ∧
       (g.sent.contains plan = false → d.translated = true → d.poison = none → mine.length < 2 ^ 32 →
         Runs (.indexList f unit ⟨g.handle, plan, host⟩) s fun v => v.mem = s.mem ∧
           (∃ h, v.firing g.handle = some h ∧ h.sent = g.sent ++ [plan]) ∧
           ∃ x : ListState, Spells x.l g.handle plan q mine ∧ x.ahead = none ∧ x.started = false ∧ x.filled = g.filledOf st x.l ∧
             ((v.frame f).gatherUnit unit).lists = (if x.finished then lists else lists ++ [x]))) ∧
     (∀ cid c k, s.cmd cid = some c → c.handle = g.handle → g.part = c.port → g.step.isSome = true → q.runAhead = true →
       q.slot = some k → s.plannedSlot g cid = some k →
       let d := s.drawBlocks g f q.table [some c.op1.toNat] host
       let mine := d.indices.filter (t.desc.routes q.shard)
       d.translated = true → d.poison = none → mine ≠ [] → mine.length < 2 ^ 32 →
       (g.ahead.any fun a => decide (a.cid = cid ∧ a.l.plan = plan)) = false →
       Runs (.runAheadList f unit cid ⟨plan, host⟩) s fun v => v.mem = s.mem ∧
         ∃ x : ListState, Spells x.l g.handle plan q mine ∧ x.ahead = some cid ∧ x.next = 0 ∧
           ((v.frame f).gatherUnit unit).lists = lists ++ [x] ∧
           ∃ h, v.firing g.handle = some h ∧ h.ahead = g.ahead ++ [⟨cid, k, x.l, []⟩]))

/-- R70, R92, R95: what a copy and switch leaves: the row's directory entry names the new slot, class and row scale. R58, R70,
R71, R85, R92, R249: the kiln promotes the oldest queued row from its tier F copy into a free slot, and the request leaves;
relocates a resident row, recoded, to a free slot; moves a row to either; drops the oldest request when no room can be made, and
counts it, and keeps it while a slot is free; a block that a recoding saturates counts in CARRY_SAT; lowers a row's counter in
one write. Choices of the model that this rests on: logs 9, 28. -/
def Obligations.KilnMovesRows : Prop :=
  (∀ (s : State) (f : Nat) (r : RowAt) (key : RowKey) (img : RowImage) (tier : Tier) (slot : Nat), slot < 2 ^ 32 →
     (s.copyAndSwitch f r key img tier slot).entryAt r = ⟨true, tier, clsNum img.cls, slot, img.scale.toNat⟩ ∧
     (s.copyAndSwitch f r key img tier slot).beads = s.beads ∧ (s.copyAndSwitch f r key img tier slot).cmds = s.cmds) ∧
  (∀ (f : Nat) (s : State) (key : RowKey) (r : RowAt) (tier : Tier) (cls : WidthClass) (slot : Nat) (scale : BitVec 16),
     frameOk f = true → s.movesRows = true → (s.frame f).kiln.absent = false → s.rowAt f key.table key.row = some r →
     let e := s.entryAt r
     let moved := fun img : RowImage =>
       if img.cls = cls ∧ img.scale = scale then (s.copyAndSwitch f r key img tier slot).freeExtent e.slot
       else ((s.countRecode f img cls scale).copyAndSwitch f r key (recode img cls scale) tier slot).freeExtent e.slot
     (∀ rest img, (s.frame f).promo = key :: rest → e.present = false → s.promotable f r key tier cls slot = true →
       s.extentRow e.slot = some img →
       exec (.promotion f (.slot tier cls slot scale) false) s = .next ((moved img).dropRequest f false) ∧
       exec (.kilnPolicyMove f key.table key.row (.slot tier cls slot scale)) s = .next (moved img)) ∧
     (∀ rest, (s.frame f).promo = key :: rest → e.present = true →
       exec (.promotion f (.slot tier cls slot scale) false) s = .next (s.dropRequest f false)) ∧
     (r.shard.frame = f → s.copyable f r = true → s.kilnSlotOk f r key tier (clsNum cls) slot = true →
       let img := s.readRow (e.unit f) e.cls r.table.desc.blocks e.scale
       exec (.relocation f key.table key.row tier cls slot scale) s =
         .next ((s.countRecode f img cls scale).copyAndSwitch f r key (recode img cls scale) tier slot)) ∧
     (∀ rest, (s.frame f).promo = key :: rest → s.lacksSlot f key = false → exec (.promotionRoomTimeout f) s = .next s) ∧
     (∀ rest, (s.frame f).promo = key :: rest → s.lacksSlot f key = true → Runs (.promotionRoomTimeout f) s fun t => OnlyFrame f s t ∧
       (t.frame f).promo = rest ∧
       (t.frame f).counters.promoNoslot = min ((s.frame f).counters.promoNoslot + 1) 0xFFFFFFFF) ∧
     (∀ ext, r.shard.frame = f → s.copyable f r = true → s.mayDemote f r key = true →
       s.extentFree ext (imageExtents (s.readRow (e.unit f) e.cls r.table.desc.blocks e.scale)) = true →
       exec (.kilnPolicyMove f key.table key.row (.extent ext)) s =
         .next ((s.demote f r key ext).coolRow f key.table key.row)) ∧
     (∀ v : BitVec 16, v.toNat ≤ s.devNat r.counter 2 →
       exec (.counterDecay f key.table key.row v) s = .next (s.writeDev r.counter (leBytes 2 v.toNat))))

/-! ## Carry operations and the journal -/

/-- R81, R83, R91, R96: an operation at the dispatcher of its row's frame. On a resident, valid row it is passed to the carry
unit that serves the row's slot; on a row that is not resident an operation of a serving firing is recorded in the cold
index; one that breaks R83, or whose entry holds CLASS 3, is discarded whole and counted; a secondary forwards it to the primary.
`w` is the state with the errors counted that the dispatcher's read finds (R241), `u` one with the operation's units charged. -/
def Obligations.CarryDispatchRoutesOperation : Prop :=
  ∀ (f : Nat) (op : CarryOp) (b : BeadId) (h : Nat) (s u : State) (t : Table) (r : RowAt) (found : List BurstFound),
    let src : CarrySource := .step b h
    frameOk f = true → s.up = true → s.sourceOk f src = true → s.srcAny src op.table.toNat = some t →
    t.rowAt op.row.toNat = some r → r.shard.frame = f → (s.frame f).fenced = false →
    let e := s.entryAt r
    let w := s.findErrors (s.dispatchReads f op src) found
    (w.opOk t f op src = false → w.chargeCarry src f 8 = some u →
      exec (.carryDispatch f op src found) s = .next (u.modCounters f fun k => { k with badOps := min (k.badOps + 1) 0xFFFFFFFF })) ∧
    (w.opOk t f op src = true → s.twin.role = 2 → w.chargeCarry src f (w.forwardUnits r op) = some u →
      Runs (.carryDispatch f op src found) s fun v =>
        v.twin.fwds = s.twin.fwds ++ [(s.twin.nextFwd, f, op, src)] ∧ v.twin.nextFwd = s.twin.nextFwd + 1 ∧
        v.mem = w.mem ∧ v.frames = u.frames) ∧
    (w.opOk t f op src = true → s.twin.role = 1 → s.carryStopped = false → w.entryBad r = false →
      (e.cls = 3 → w.chargeCarry src f 8 = some u → exec (.carryDispatch f op src found) s = .next
        (u.modCounters f fun k => { k with badOps := min (k.badOps + 1) 0xFFFFFFFF })) ∧
      (e.present = true → e.cls ≠ 3 → (rowScaleVal e.scale).isZero = false → r.table.desc.badEntry e = false →
        w.spanBad (e.unit f) e.cls op = false → w.accBad f op src = false → Runs (.carryDispatch f op src found) s fun v =>
          OnlyFrame f w v ∧ (v.frame f).carryUnit (carryUnitOf e) = (s.frame f).carryUnit (carryUnitOf e) ++
            [⟨op, src, e.tier, clsOf e.cls, e.slot, BitVec.ofNat 16 e.scale⟩]) ∧
      (e.present = false → e.cls ≠ 3 → s.missBead src = none → w.chargeCarry src f 8 = some u →
        (s.frame f).cold.length < 1048576 → Runs (.carryDispatch f op src found) s fun v =>
          (v.frame f).cold = (s.frame f).cold ++ [⟨op, src⟩] ∧ v.mem = w.mem))

/-- R84, R86, R87, R104: a carry unit applies its oldest operation, ADD or ADD_SCALED, to its row, appends it to the frame's
journal and settles it; an operation of the other opcode waits for its own command. `w` is the state with the errors counted
that the unit's reads find (R241), `u` that with the operation's units charged. R84, R182: an ADD on a block takes each new
value as the rounded sum of the old element's value and the rounded product of factor and delta, chooses the smallest glaze code
that holds the largest of them (leaving the byte where all are 0), and stores each value quantised under the new scale. Choices
of the model that this rests on: log 30. -/
def Obligations.CarryUnitAppliesOldest : Prop :=
  (∀ (f unit : Nat) (s u : State) (j : CarryJob) (rest : List CarryJob) (r : RowAt) (found : List BurstFound),
     carryOk f unit = true → s.up = true → (s.frame f).fenced = false → (s.frame f).carryUnit unit = j :: rest →
     let w := s.findErrors (s.opReads f j.op j.src) found
     w.srcRow j.src f j.op.table.toNat j.op.row.toNat = some r →
     let e := w.entryAt r
     w.entryBad r = false → w.spanBad (e.unit f) e.cls j.op = false → w.accBad f j.op j.src = false →
     w.chargeCarry j.src f (carryUnits e.tier e.cls j.op) = some u →
     let done := (((u.setCarry f unit rest).applyOp r.table f e j.op j.src).journalAppend (u.seqOf f) f j.op.table.toNat
       j.op.row.toNat false (.carry j.op)).settleOp f j.src true
     (j.op.opcode = 1 → exec (.add f unit found) s = .next done ∧ exec (.addScaled f unit found) s = .next s) ∧
     (j.op.opcode = 2 → exec (.addScaled f unit found) s = .next done ∧ exec (.add f unit found) s = .next s)) ∧
  (∀ (cls glaze rs : Nat) (factor : Val) (bs : List Byte) (ds : List Val), ds.length = 32 →
     let s := combined glaze rs
     let vs := (List.zip (blockCodes cls bs) ds).map fun p =>
       ((dequantise (clsFmt cls) p.1 s).add (factor.mul p.2).round32).round32
     let m := vs.foldl maxMag .zero
     let g := if m.isZero then glaze else chooseGlaze (clsFmt cls) rs m
     let out := addBlock cls glaze rs factor bs ds
     out.1 = g ∧ (cls < 3 → blockCodes cls out.2.1 = vs.map fun v => (quantise (clsFmt cls) v (combined g rs)).1 % 2 ^ clsBits cls))

/-! ## Firings and steps -/

/-- R24, R35, R36, R37, R363: FIRING_ADMIT, in its turn, is refused with the reason of the first check that its image fails, and
changes nothing else; an image that passes becomes a firing of the partition under the next handle, with its rules fresh and no
step, and the command stays until the cone reaches the firing's floor. Choices of the model that this rests on: logs 40, 88, 98.
-/
def Obligations.AdmissionChecksImage : Prop :=
  ∀ (c : Nat) (img : ImageContents) (s : State) (x : Cmd), Ready s c 0x01 x → s.masterTurn c = true →
    (s.imageAt x.port x.op0.toNat img = none → exec (.firingAdmit c img) s = .next (s.refuse c 0x01)) ∧
    (∀ i, s.imageAt x.port x.op0.toNat img = some i →
      (∀ k, s.admitChecks x.port 0 i = some k → exec (.firingAdmit c img) s = .next (s.refuse c k)) ∧
      (∀ pins, s.admitChecks x.port 0 i = none → s.pinsOf x.port i = some pins →
        (∀ f ∈ s.firings, f.handle ≠ s.nextHandle) → Runs (.firingAdmit c img) s fun t =>
          ∃ f, t.firing s.nextHandle = some f ∧ f.img = i ∧ f.part = x.port ∧ f.pins = pins ∧ f.step = none ∧ f.stepNo = 0 ∧
            f.rules = i.freshRules ∧ f.hist = [] ∧ t.nextHandle = (s.nextHandle + 1) % 2 ^ 32 ∧ t.beads = s.beads ∧
            (i.beadFrames = 0 → f.status = .running) ∧
            (i.beadFrames ≠ 0 → f.status = .entering ∧
              ∀ k < 20, inMask i.beadFrames k = true → FrameAction.entry s.nextHandle ∈ (t.frame k).actions)))

/-- R24, R42, R43, R225, R355, R356: the commands on an admitted firing. A handle that is not the partition's is refused with
0x10. FIRING_RUN waits for its firing's step; FIRING_SWAP of an image that passes its checks is pending while a step runs;
WITHDRAW and PREEMPT ask for a quiescent point of the firing's frames, and a firing without beads that runs no step goes at
once; PREEMPT of a pre-empted firing and RESUME of one that is not complete with OK; a RESUME whose checks fail waits, and one
whose checks pass lets the firing enter as at admission, its rules and its step number anew (R203, R421) and its records kept.
Choices of the model that this rests on: logs 44, 46, 88, 97. -/
def Obligations.FiringCommandsAct : Prop :=
  ∀ (c op : Nat) (img : ImageContents) (s : State) (x : Cmd), Ready s c op x → s.hasMaster = true → s.master.moving = false →
    let i : Instr := if op = 0x02 then .firingRun c else if op = 0x03 then .firingSwap c img else if op = 0x04 then
      .firingWithdraw c else if op = 0x05 then .firingPreempt c else .firingResume c
    2 ≤ op → op ≤ 6 →
    ((∀ f, s.firing x.handle = some f → f.part ≠ x.port) → exec i s = .next (s.refuse c 0x10)) ∧
    (∀ f, s.firing x.handle = some f → f.part = x.port →
      (op = 0x02 → exec i s = .next (s.modCmd c fun x => { x with phase := .waiting })) ∧
      (op = 0x03 → f.swap = none → s.committing = false →
        (s.imageAt x.port x.op1.toNat img = none → exec i s = .next (s.refuse c 0x01)) ∧
        (∀ b, s.imageAt x.port x.op1.toNat img = some b →
          (∀ k, s.admitChecks x.port f.handle b = some k → exec i s = .next (s.refuse c k)) ∧
          (∀ pins, s.admitChecks x.port f.handle b = none → s.pinsOf x.port b = some pins →
            (s.swapBarred f b = true → exec i s = .next (s.refuse c 0x11)) ∧
            (s.swapBarred f b = false → f.step ≠ none → Runs i s fun t =>
              t.firing x.handle = some { f with swap := some (c, b, pins) } ∧ t.mem = s.mem ∧ t.beads = s.beads)))) ∧
      (op = 0x04 → f.img.seq = true → s.runsOf f CmdPhase.joined ≠ [] ∨ f.leaving ≠ [] → exec i s = .next (s.refuse c 0x11)) ∧
      (op = 0x04 → f.img.seq = false → f.img.beadFrames = 0 → f.step = none →
        Runs i s fun t => t.firing x.handle = none) ∧
      (op = 0x04 → f.img.seq = false → f.img.beadFrames ≠ 0 → Runs i s fun t =>
        (∃ g, t.firing x.handle = some g ∧ g.withdrawing = true ∧ g.status = f.status ∧ g.step = f.step ∧ g.img = f.img) ∧
        (∀ k < 20, inMask f.img.beadFrames k = true → FrameAction.withdraw x.handle ∈ (t.frame k).actions) ∧
        t.mem = s.mem ∧ t.beads = s.beads) ∧
      (op = 0x05 → f.status = .preempted → exec i s = .next (s.completeOk c 0)) ∧
      (op = 0x05 → f.status ≠ .preempted → f.img.beadFrames ≠ 0 → Runs i s fun t =>
        t.firing x.handle = some f ∧ t.mem = s.mem ∧ t.beads = s.beads ∧
        ∀ k < 20, inMask f.img.beadFrames k = true → FrameAction.preempt x.handle ∈ (t.frame k).actions) ∧
      (op = 0x06 → f.status ≠ .preempted → exec i s = .next (s.completeOk c 0)) ∧
      (op = 0x06 → f.status = .preempted → f.swap = none → ∀ k, s.checksFrom3 f.part f.handle f.img = some k →
        exec i s = .next (s.busyCmd c 0)) ∧
      (op = 0x06 → f.status = .preempted → f.swap = none → s.committing = false →
        s.checksFrom3 f.part f.handle f.img = none → ∀ pins, s.pinsOf f.part f.img = some pins → Runs i s fun t =>
          ∃ g, t.firing x.handle = some g ∧ g.img = f.img ∧ g.pins = pins ∧ g.stepNo = 0 ∧ g.rules = f.img.freshRules ∧
            g.hist = f.hist ∧ g.late = f.late ∧ g.stepsRun = f.stepsRun ∧ g.acct = f.acct ∧ t.beads = s.beads ∧
            (f.acct = none → t.mem = s.mem) ∧
            (f.img.beadFrames = 0 → g.status = .running) ∧
            (f.img.beadFrames ≠ 0 → g.status = .entering ∧
              ∀ k < 20, inMask f.img.beadFrames k = true → FrameAction.entry x.handle ∈ (t.frame k).actions)))

/-- R38, R42, R111, R421: a step of a firing at its boundary takes the oldest waiting commands into the batch slots, in
acceptance order; every context starts at its program's first instruction with x1 the mask of the slots in use and its other
registers 0, counters and the exception word are cleared, and the rotation word holds s mod 64. A firing that is not at a
boundary starts no step; one without work starts none and frees the blocks of the sequences that left, which HIST_POOL_FREE then
shows (R219, R220). R216, R218, R219, R220: at the boundary of a firing with sequences, a waiting sequence joins the lowest free
slot when the pool has its blocks, which leave the pool; with too few it stays, PENDING, and counts as a deferral. Choices of
the model that this rests on: logs 4, 42. -/
def Obligations.StepStartsWithCommands : Prop :=
  (∀ (h : Nat) (s : State) (f : Firing), s.up = true → s.firing h = some f → f.swap = none →
     (s.atBoundary f = false → exec (.stepBoundary h) s = .next s) ∧
     (s.atBoundary f = true → s.hasWork f = false → Runs (.stepBoundary h) s fun t =>
       t.firing h = some { f with releasing := [], leaving := [] } ∧ t.mem = s.mem ∧ t.beads = s.beads ∧ t.cmds = s.cmds ∧
         (t.part f.part).blocks = (s.part f.part).blocks ++ (f.releasing ++ f.leaving.flatMap fun q => q.2) ∧
         (f.img.seq = true → (t.part f.part).poolFree = (t.part f.part).blocks.length)) ∧
     (s.atBoundary f = true → s.hasWork f = true → f.img.seq = false → (∀ b ∈ f.img.beads, b.ok = true) →
       Runs (.stepBoundary h) s fun t =>
         let cs := (s.runsOf f fun p => decide (p = .waiting)).take f.img.batchSlots
         let slots := List.zip (List.range cs.length) (cs.map fun c => c.id)
         (∃ g, t.firing h = some g ∧ g.img = f.img ∧ g.stepNo = f.stepNo ∧ g.step = some ⟨slots, false, [], [], 0⟩ ∧
           g.sent = [] ∧ g.leaving = [] ∧ (f.rules.length = f.img.rules.length → g.rules.map (fun r => r.fmt) = f.rules.map fun r => r.adopt.fmt)) ∧
         (∀ q ∈ slots, ∀ y, s.cmd q.2 = some y → (∀ w ∈ s.cmds, w.id = q.2 → w = y) → (cs.map fun c => c.id).Nodup →
           t.cmd q.2 = some { y with phase := .inSlot q.1 }) ∧
         (∀ b ∈ f.img.beads, ∀ c < 8, (t.bead b).ctx c = f.img.ctxAt b (slotMask slots) c) ∧
         (f.keptEvents = [] → ∀ b ∈ f.img.beads, (t.bead b).counters = [] ∧ (t.bead b).releases = [] ∧
           (t.bead b).exc = 0 ∧ (t.bead b).acc = (s.bead b).acc) ∧
         (∀ b : BeadId, (∀ d ∈ f.img.beads, d.key ≠ b.key) → (∀ e ∈ f.keptEvents, e.1.key ≠ b.key) → t.bead b = s.bead b) ∧
         (f.img.mode ≠ 4 → f.img.contents.rotationOffset + 8 ≤ 16384 → ∀ b ∈ f.img.beads,
           t.scratchBytes b f.img.contents.rotationOffset 8 = leBytes 8 (f.stepNo % 64)) ∧
         t.mem.dram = s.mem.dram)) ∧
  (∀ (h : Nat) (s : State) (f : Firing) (x : Cmd), s.up = true → s.firing h = some f → f.swap = none → s.atBoundary f = true →
     f.img.seq = true → f.withdrawing = false → 1 ≤ f.img.joinMax → 1 ≤ f.img.batchSlots → f.img.beads = [] →
     f.keptEvents = [] →
     s.runsOf f CmdPhase.joined = [] → (s.runsOf f fun p => decide (p = .pendingSeq)) = [] →
     (s.runsOf f fun p => decide (p = .waiting)) = [x] → s.cmd x.id = some x → (∀ y ∈ s.cmds, y.id = x.id → y = x) →
     s.otherPending f = [] →
     s.hasWork f = true →
     let pool := (s.part f.part).blocks
     (f.img.seqBlocks ≤ pool.length → Runs (.stepBoundary h) s fun t =>
       (∃ y, t.cmd x.id = some y ∧ y.phase = .inSlot 0 ∧ y.steps = 0 ∧ y.blocks.length = f.img.seqBlocks ∧ ∀ k ∈ y.blocks, k ∈ pool) ∧
       (t.part f.part).blocks.length + f.img.seqBlocks = pool.length ∧ (t.part f.part).deferrals = (s.part f.part).deferrals ∧
       ∃ g, t.firing h = some g ∧ g.step = some ⟨[(0, x.id)], false, [], [], 0⟩) ∧
     (pool.length < f.img.seqBlocks → Runs (.stepBoundary h) s fun t =>
       (∃ y, t.cmd x.id = some y ∧ y.phase = .pendingSeq) ∧ (t.part f.part).blocks = pool ∧
       (t.part f.part).deferrals = inc32 (s.part f.part).deferrals))

/-- R48, R113, R189, R219: a step whose contexts have all ended and whose work is done ends: the firing runs no step, its step
numbers go on, the bead histogram counts are cleared, and every command of the step completes, with FAULTED, RANGE_TRIP, AT_RISK
or OK in that order. A step with a context that runs, or with work outstanding, does not end. A firing without beads that is to
be withdrawn or pre-empted goes with the end of its step: the model's choice (log 89). R192, R193, R212: the forward pass of a
running step ends, and the backward pass starts, when every context is at its split, waiting for nothing, or has ended, and
every engine is done; the tie pass starts in the same way in a tied firing; contexts that run keep the pass. Choices of the
model that this rests on: logs 4, 89. -/
def Obligations.StepEndsWhenDone : Prop :=
  (∀ (h : Nat) (s : State) (f : Firing) (st : Step), s.up = true → s.firing h = some f → f.step = some st →
     ((s.allCtxs f (fun x => x.ended) && s.worksDone f && !s.carries h) = false → exec (.stepEnd h) s = .next s) ∧
     (s.allCtxs f (fun x => x.ended) = true → s.worksDone f = true → s.carries h = false → Runs (.stepEnd h) s fun t =>
       (f.img.beadFrames ≠ 0 ∨ (f.withdrawing = false ∧ s.kilnCmds f 0x05 = []) → ∃ g, t.firing h = some g ∧ g.step = none ∧
         g.stepNo = f.stepNo + 1 ∧ g.stepsRun = f.stepsRun + 1 ∧ g.img = f.img ∧ g.releasing = [] ∧ g.oldTables = [] ∧
         (f.img.seq = false → g.leaving = f.leaving)) ∧
       (f.img.beadFrames = 0 → f.withdrawing = true → t.firing h = none) ∧
       (∀ b ∈ f.img.beads, t.bead b = { s.bead b with hist := [], histSat := [] }) ∧
       (∀ k c x, st.slots = [(k, c)] → InFlight s c x → f.img.seq = false → x.down = none → (s.port x.port).state = 2 →
         (s.ring x.port x.ring).held = [] → (s.ring x.port x.ring).hasSpace = true → x.steps0 = [] →
         (∀ y ∈ s.cmds, y.steps0 = []) →
         (f.img.beadFrames ≠ 0 ∨ (f.withdrawing = false ∧ s.kilnCmds f 0x05 = [])) →
         let r := s.ring x.port x.ring
         ∃ rec : CplRecord, (t.port x.port).tx = (s.port x.port).tx ++
           [.completion c (r.cplAddr r.cplPos) (rec.bytes (decide (r.cplPos / r.size % 2 = 0)))] ∧ rec.code =
           (if x.faulted || st.faulted then 4 else if x.tripped || st.trips.contains k then 5
             else if x.atRisk || x.met f.img then 6 else 0)))) ∧
  (∀ (h : Nat) (s : State) (f : Firing) (st : Step), s.up = true → s.firing h = some f → f.step = some st →
     let ready := fun p => s.allCtxs f (fun x => x.ended || (x.atSplit p && x.waiting.isNone)) && s.enginesDone f
     let inPass := fun p => s.modFiring h fun f => { f with step := f.step.map fun st => { st with pass := p } }
     (st.pass = 0 → (f.img.contents.threads.any fun t => t.passSplit.isSome) = true → ready 0 = true →
       exec (.forwardPassEnd h) s = .next (inPass 1)) ∧
     (st.pass ≠ 0 ∨ ready 0 = false → exec (.forwardPassEnd h) s = .next s) ∧
     (f.img.tied = true → st.pass = 1 → (f.img.contents.threads.any fun t => t.tieSplit.isSome) = true → ready 1 = true →
       exec (.tiePassStart h) s = .next (inPass 2)) ∧
     (f.img.tied = false ∨ st.pass ≠ 1 ∨ ready 1 = false → exec (.tiePassStart h) s = .next s))

/-- R201, R202: an evaluation of a rule adds the counts read to its sums; with fewer than MIN_COUNT in bins 1 to 31 it decides
nothing. A result wider than the format in force takes effect at the next step boundary; NARROW_HOLD narrower ones in a row
bring the widest of them into force. Bins 30 or 31 in use give BF16. Choices of the model that this rests on: logs 45, 99. -/
def Obligations.GradRuleDecides : Prop :=
  ∀ (h k : Nat) (s : State) (f : Firing) (r : List Word64) (y : RuleState) (read : Sparse Nat),
    s.up = true → s.hasMaster = true → s.firing h = some f → f.img.rules[k]? = some r → f.rules[k]? = some y →
    y.read = some read →
    let bin := fun b => Sparse.read 0 (addBins y.sums read) b
    let n := ((List.range 31).map fun i => bin (i + 1)).sum
    let result := evaluateRule r bin
    let hold := ruleField r 0x18 1
    Runs (.gradRuleEval h k) s fun t => { t with firings := s.firings } = s ∧ ∃ g z, t.firing h = some g ∧
      { g with rules := f.rules } = f ∧ g.rules[k]? = some z ∧ z.read = none ∧ z.fmt = y.fmt ∧
      (n < ruleField r 0x10 8 → (∀ b < 32, Sparse.read 0 z.sums b = Sparse.read 0 y.sums b + Sparse.read 0 read b) ∧
        z.next = y.next ∧ z.narrow = y.narrow) ∧
      (ruleField r 0x10 8 ≤ n → z.sums = [] ∧
        (0 < bin 30 + bin 31 → result = 5) ∧
        (y.fmt < result → z.next = result + 1) ∧
        (hold = 1 → result < y.fmt → z.next = result + 1) ∧
        (result = y.fmt → 1 ≤ hold → z.next = y.next))

/-- R37, R39, R41, R43, R114, R355: at a frame's quiescent point its kiln performs the action that waits: an entering firing
with its beads there that passes its re-check runs, with its rods' scratch zeroed; one to be pre-empted is pre-empted; one to be
withdrawn is gone. While a step with beads on the frame runs, nothing happens. Choices of the model that this rests on: logs 4,
73, 89. -/
def Obligations.QuiescentPointActs : Prop :=
  ∀ (k h : Nat) (s : State) (f : Firing), frameOk k = true → s.firing h = some f → s.smbus.waiting = none →
    (s.quiet k = false → exec (.frameQuiescent k) s = .next s) ∧
    (s.kilnActs k = true → s.frameHeld k = true → s.quiet k = true →
      (∀ c ∈ s.cmds, c.d.opcode ≠ 0x06) → (∀ j, j ≠ k → (s.frame j).actions = []) →
      ((s.frame k).actions = [.entry h] → f.status = .entering → s.recheckOk f = true → Runs (.frameQuiescent k) s fun t =>
        (∃ g, t.firing h = some g ∧ g.status = .running ∧ g.img = f.img) ∧ (t.frame k).actions = [] ∧
        ((f.img.contents.moverProgs.any fun e => e.reload) = false → (∀ r ∈ f.img.rods, r.ok = true) →
          ∀ r ∈ f.img.rods, r.frame = k → ∀ b ∈ r.beadList, ∀ off < 16384, t.scratchBytes b off 1 = [0])) ∧
      ((s.frame k).actions = [.preempt h] → Runs (.frameQuiescent k) s fun t =>
        ∃ g, t.firing h = some g ∧ g.status = .preempted ∧ g.img = f.img ∧ g.stepNo = f.stepNo) ∧
      ((s.frame k).actions = [.withdraw h] → Runs (.frameQuiescent k) s fun t => t.firing h = none))

/-! ## Rows, greenware, replay -/

/-- R82, R89, R481: CARRY_SUBMIT reads its list, an operation at a time; an operation that is read whole enters the carry path;
when the list is read and every operation is settled the command completes OK with the numbers applied and discarded. A read
that faults is raised, and the command waits. R93, R94, R96, R484: ROW_WRITE writes its image into the slot, journals it and
keeps the slot for the row, and completes once its bursts have gone to the twin; ROW_SWITCH names the new slot when the entry is
the expected one, its result is the entry that it found, and it completes once the steps running then have ended and the twin
has acknowledged the entry. Both are refused on a secondary, for a row that is not the partition's, for a slot that R484 bars;
ROW_SWITCH with another entry than expected is refused with 0x12. Choices of the model that this rests on: logs 28, 36, 37, 100,
101, 103. -/
def Obligations.RowCommandsWriteAndSwitch : Prop :=
  (∀ (c : Nat) (host : List Byte) (s : State) (x : Cmd), Ready s c 0x08 x →
     s.unasked x x.op0.toNat x.op1.toNat = [] → s.cmdAwaits c = false →
     let base := x.op0.toNat
     let va := base + x.done
     let left := x.op1.toNat - x.done
     (left = 0 → x.outstanding = 0 → x.faulted = false → exec (.carrySubmit c host) s =
       .next ((s.modCmd c fun x => { x with phase := .busy }).completeOk c
         (BitVec.ofNat 64 (x.applied % 2 ^ 32 + x.discarded % 2 ^ 32 * 2 ^ 32)))) ∧
     (∀ k a, 0 < left → s.operandRead x base va (min 32 left) host = .fault k a →
       exec (.carrySubmit c host) s = .next (s.faultCmd x k a)) ∧
     (∀ head hs bs hs' u t, 0 < left → s.operandRead x base va (min 32 left) host = .got head hs →
       x.done + listedLength head left = x.op1.toNat →
       s.operandRead x base va (listedLength head left) host = .got bs hs' →
       ((s.afterRead x va (listedLength head left)).modCmd c fun x =>
         { x with done := x.done + listedLength head left, outstanding := x.outstanding + 1 }).chargeRead x.port
           (listedLength head left) (s.readHost x va (listedLength head left)) = some u →
       u.dispatch (s.portFrame x.port) (listedOp bs) (.command c) = some t →
       (∀ y, t.cmd c = some y → y.done = x.op1.toNat ∧ y.op1 = x.op1) →
       exec (.carrySubmit c host) s = .next ((t.modCmd c fun x => { x with phase := .busy }).carryDone c))) ∧
  (∀ (c : Nat) (host : List Byte) (s : State) (x : Cmd) (r : RowAt), s.ownRow x = some r → (s.frame r.shard.frame).fenced = false →
     (Ready s c 0x09 x → (s.twin.role = 2 ∨ s.twin.role = 3) → exec (.rowWrite c host) s = .next (s.refuse c 0x16)) ∧
     (Ready s c 0x09 x → s.twin.role ≠ 2 → s.twin.role ≠ 3 → s.unasked x x.op2.toNat (imageBytes r.table.desc) = [] →
       s.cmdAwaits c = false → ∀ head hs, s.operandRead x x.op2.toNat x.op2.toNat 8 host = .got head hs →
       let n := 8 + glazePad r.table.desc.blocks + r.table.desc.blocks * blockBytes (bits (fieldAt head 0 8) 17 16)
       (∀ d, s.rowWriteDetail x r (fieldAt head 0 8) = some d → exec (.rowWrite c host) s = .next (s.refuse c d)) ∧
       (∀ bs hs' t, s.rowWriteDetail x r (fieldAt head 0 8) = none →
         s.operandRead x x.op2.toNat x.op2.toNat n host = .got bs hs' →
         s.chargeRead x.port n (s.readHost x x.op2.toNat n) = some t →
         exec (.rowWrite c host) s = .next ((t.afterRead x x.op2.toNat n).finishRowWrite x r bs))) ∧
     (Ready s c 0x0A x → s.twin.role ≠ 2 → s.twin.role ≠ 3 → s.entryBad r = false →
       (s.frame r.shard.frame).kiln.absent = false →
       let cur := s.devNat r.entry 8
       (s.newEntryOk x r x.op2.toNat = false →
         exec (.rowSwitch c) s = .next (s.complete c 1 0x1B (BitVec.ofNat 64 cur))) ∧
       (s.newEntryOk x r x.op2.toNat = true → BitVec.ofNat 64 cur ≠ x.op1 →
         exec (.rowSwitch c) s = .next (s.complete c 1 0x12 (BitVec.ofNat 64 cur))) ∧
       (s.newEntryOk x r x.op2.toNat = true → BitVec.ofNat 64 cur = x.op1 → x.down = none → (s.port x.port).state = 2 →
         (∀ u, (s.frame r.shard.frame).carryUnit u = []) → Runs (.rowSwitch c) s fun t => t.devNat r.entry 8 = x.op2.toNat ∧ t.beads = s.beads ∧
           (s.runningSteps ≠ [] → ∃ y, t.cmd c = some y ∧ y.phase = .busy ∧ y.steps0 = s.runningSteps ∧
             y.copied = [r.entry.burst] ∧ y.result = BitVec.ofNat 64 cur))) ∧
     (InFlight s c x → x.phase = .busy → x.d.opcode = 0x09 →
       s.finishRow c = if x.copied.any s.sendPending then s else s.complete c 0 0 x.result) ∧
     (InFlight s c x → x.phase = .busy → x.d.opcode = 0x0A →
       s.finishRow c = if x.steps0 ≠ [] ∨ x.copied.any s.copyPending = true then s else s.complete c 0 0 x.result))

/-- R411, R412, R413, R414: CHECK copies the change list and leaves the bank PASSED, or FAILED with the reason and the entry of
the first failure, and completes OK; COMMIT of a bank that is not PASSED is refused with 0x18, and of a PASSED one waits for a
quiescent point of every frame that is not fenced; with the last of them the staged registers are in force and the bank is
EMPTY; GW_DISCARD takes the staged registers back. R415: a paired primary with a twin in reach fails a list with changes carried
there that the twin's own check refuses with REASON 7, and its COMMIT ends once the twin has applied them too (the twin's
answers are operands: the model's choice, log 109). Choices of the model that this rests on: logs 48, 49, 88, 109. -/
def Obligations.BanksCheckCommitDiscard : Prop :=
  ∀ (c : Nat) (twin : Bool) (s : State) (x : Cmd),
    let n := x.port
    let b' := s.part n
    let b := b'.bank
    (Ready s c 0x28 x → s.hasMaster = true → s.master.moving = false → b.state = 2 ∨ b.state = 6 →
      exec (.check c twin) s = .next (s.refuse c 0x18)) ∧
    (Ready s c 0x28 x → s.masterTurn c = true →
      (b.state ≠ 2 → b.state ≠ 6 → ∀ list, s.readList n = some list → s.twinBars list = false → Runs (.check c twin) s fun t =>
        (t.part n).live = (s.part n).live ∧ (t.part n).bank.list = list ∧
        (s.checkBank n list = none → (s.carriesLists = false ∨ twin = true ∨ carried list = false) →
          (t.part n).bank.state = 3 ∧ (t.part n).bank.reason = 0) ∧
        (s.checkBank n list = none → s.carriesLists = true → twin = false → carried list = true →
          (t.part n).bank.state = 4 ∧ (t.part n).bank.reason = 7 ∧
          ∃ e, list[(t.part n).bank.entry]? = some e ∧ (e.struct = 1 ∨ e.struct = 3)) ∧
        (∀ q, s.checkBank n list = some q → (t.part n).bank.state = 4 ∧ (t.part n).bank.reason = q.1 ∧
          (t.part n).bank.entry = q.2)) ∧
      (b.state ≠ 2 → b.state ≠ 6 → s.readList n = none → Runs (.check c twin) s fun t =>
        (t.part n).live = (s.part n).live ∧ (t.part n).bank.state = 4 ∧ (t.part n).bank.reason = 3)) ∧
    (Ready s c 0x29 x → s.masterTurn c = true → s.twinBars b.list = false →
      (b.state ≠ 3 → exec (.commit c twin) s = .next (s.refuse c 0x18)) ∧
      (b.state = 3 → Runs (.commit c twin) s fun t => (t.part n).bank.state = 6 ∧ (t.part n).live = (s.part n).live ∧
        (t.part n).bank.twin = (s.carriesLists && carried b.list) ∧
        (∀ f < 20, (s.frame f).fenced = false →
          f ∈ (t.part n).bank.left ∧ FrameAction.commit n ∈ (t.frame f).actions) ∧
        (∀ m < 4, m ≠ n → (s.part m).bank.state = 3 → (t.part m).bank.state = 5) ∧ t.mem = s.mem)) ∧
    (∀ k f, b.state = 6 → b.left = [f] → (s.frame f).fenced = false → b.cid = none → k = n →
      if b.twin = true ∧ s.carriesLists = true then
        ((s.commitFrame k f).part k).live = (s.part k).live ∧ ((s.commitFrame k f).part k).bank.state = 6
      else ((s.commitFrame k f).part k).live = (s.part k).staged ∧ ((s.commitFrame k f).part k).bank.state = 0) ∧
    (InFlight s c x → s.up = true → x.phase = .busy → x.d.opcode = 0x29 → n < 4 → b.cid = some c →
      (∀ m < 4, (s.part m).bank.cid = some c → m = n) → b.state = 6 → s.commitLeft b = [] →
      Runs (.commit c true) s fun t => (t.part n).live = b'.staged ∧ (t.part n).bank.state = 0) ∧
    (∀ v : Word64, portOk n = true → s.up = true → (s.port n).state ≠ 0 → s.partExists n = true → v.getLsbD 0 = true →
      b.state ≠ 2 → b.state ≠ 6 → Runs (.gwDiscard n v) s fun t => OnlyPart n s t ∧
        (t.part n).staged = (s.part n).live ∧ (t.part n).bank.state = 0 ∧ (t.part n).bank.lateWrite = b.lateWrite)

/-- R104, R105, R107: the primary gives a record the next JSEQ of its frame and stages it at the end of the ring; one that does
not fit, or comes while no bay takes records, is lost, and the lost JSEQs are a range for the next GAP. A module that is not the
primary journals nothing. R105: MSEQ is the SEQ of the last stream record that a change of memory has produced, and 0 for a
change that produced none. R2, R105, R106: a journal record as bytes, little-endian: TYPE, LENGTH, FRAME, COLD, TABLE, JSEQ,
MSEQ, ROW and the CRC over the whole record with the CRC field 0. R104, R107, R108, R437, R462: staged records go, in order, to
the bay of their frame, and leave the staging ring once the saggar acknowledges them; a GAP record names the JSEQs lost and
marks the frame; a shard of the checkpoint in progress is written to its bay, with a CHECKPOINT record. R96, R103, R109:
JOURNAL_REPLAY is refused with 0x16 where the module is not primary; otherwise it applies, in order, the records that the bays
hold after the last SEQ of its EPOCH_START record, and its result counts them. Choices of the model that this rests on: logs 28,
29, 34, 104, 105. -/
def Obligations.JournalReachesSaggar : Prop :=
  (∀ (s : State) (seq0 f table row : Nat) (cold : Bool) (body : JournalBody),
     let j := (s.frame f).journal
     let t := s.journalAppend seq0 f table row cold body
     let k := (t.frame f).journal
     (s.twin.role ≠ 1 → t = s) ∧
     (s.twin.role = 1 → j.lost = none →
       k.nextJseq = j.nextJseq + 1 ∧ t.mem = s.mem ∧ t.beads = s.beads ∧ t.cmds = s.cmds ∧
       (s.stageFits f (journalLength body) = true →
         k.ring = j.ring ++ [⟨f, cold, table, j.nextJseq, s.mseq seq0 f cold body, row, body⟩] ∧ k.lost = none ∧
         k.ringBytes = j.ringBytes + journalLength body) ∧
       (s.stageFits f (journalLength body) = false → k.ring = j.ring ∧ k.lost = some (j.nextJseq, j.nextJseq)))) ∧
  (∀ (s : State) (seq0 f : Nat) (cold : Bool) (body : JournalBody),
     (changesMemory cold body = true → seq0 < (s.frame f).stream.nextSeq →
       s.mseq seq0 f cold body + 1 = (s.frame f).stream.nextSeq) ∧
     (changesMemory cold body = false ∨ (s.frame f).stream.nextSeq ≤ seq0 → s.mseq seq0 f cold body = 0)) ∧
  (∀ (r : JournalRec), r.frame < 256 → r.table < 65536 → r.jseq < 2 ^ 64 → r.mseq < 2 ^ 64 → r.row < 2 ^ 32 →
     journalLength r.body < 65536 →
     let bs := journalBytes r
     let at_ := fun off n => leNat ((bs.drop off).take n)
     at_ 0 2 = journalType r.body ∧ at_ 2 2 = journalLength r.body ∧ at_ 4 1 = r.frame ∧ at_ 5 1 = bit r.cold ∧
     at_ 6 2 = r.table ∧ at_ 8 8 = r.jseq ∧ at_ 0x10 8 = r.mseq ∧ at_ 0x18 4 = r.row ∧
     at_ 0x1C 4 = crc32 (bs.take 0x1C ++ [0, 0, 0, 0] ++ bs.drop 0x20) % 2 ^ 32) ∧
  (∀ (f count : Nat) (k : Bay) (s : State), frameOk f = true → s.up = true →
     let j := (s.frame f).journal
     (s.bayFor f = some k → (s.frame (s.bayFrame k)).fenced = false → (s.frame (s.bayFrame k)).kiln.absent = false →
       Runs (.journalDrain f count) s fun t =>
         let recs := (j.ring.drop j.sent).take count
         (t.bay k).sent = (s.bay k).sent ++ recs ∧ (t.frame f).journal = { j with sent := j.sent + recs.length } ∧
         t.mem = s.mem) ∧
     ((s.bay k).takes = true → Runs (.journalAck k count) s fun t =>
       let recs := (s.bay k).sent.take count
       (t.bay k).sent = (s.bay k).sent.drop count ∧ (t.bay k).held = (s.bay k).held ++ recs ∧
       (∀ r ∈ recs, r ∉ (t.frame r.frame).journal.ring) ∧ t.mem = s.mem) ∧
     (∀ first last, s.twin.role = 1 → j.lost = some (first, last) →
       s.stageFits f (journalLength (.gap first last)) = true → Runs (.gapRecord f) s fun t =>
         (t.frame f).journal.ring = j.ring ++
           [⟨f, false, 0xFFFF, j.nextJseq, 0, 0xFFFFFFFF, .gap first last⟩] ∧
         (t.frame f).journal.lost = none ∧ (f < 20 → inMask t.gapFrames f = true) ∧ t.mem = s.mem) ∧
     (∀ (table shard : Nat) (t : Table) (sh : ShardEntry), s.twin.role = 1 → (s.frame f).kiln.absent = false →
       s.tableAt f table = some t → s.bayFor f = some k → t.shard shard = some sh → sh.frame = f →
       (j.ckptLeft.getD []).contains (table, shard) = true →
       s.stageFits f (journalLength (.checkpoint shard (j.nextJseq - 1))) = true → j.lost = none →
       Runs (.checkpointShard f table shard) s fun v =>
         ⟨f, table, shard, j.nextJseq - 1, (List.range sh.localRows).map fun i => s.checkpointRow t sh i⟩ ∈ (v.bay k).ckpts ∧
         (table, shard) ∉ ((v.frame f).journal.ckptLeft.getD []) ∧ (table, shard) ∈ v.restored ∧ v.mem = s.mem)) ∧
  (∀ (c f : Nat) (s : State) (x : Cmd) (j : JournalRec) (t : Table) (r : RowAt) (lasts : List Nat), Ready s c 0x31 x →
     (s.twin.role ≠ 1 → exec (.journalReplay c) s = .next (s.refuse c 0x16)) ∧
     (s.twin.role = 1 → s.epochStartAt x.port x.op0.toNat = none → exec (.journalReplay c) s = .next (s.refuse c 0xF0)) ∧
     (s.twin.role = 1 → s.epochStartAt x.port x.op0.toNat = some lasts → s.bayA.ckpts = [] → s.bayB.ckpts = [] →
       s.bayB.held = [] →
       (s.bayA.held = [] → exec (.journalReplay c) s = .next (s.completeOk c 0)) ∧
       (s.bayA.held = [j] → s.bayA.state = 4 → x.op1.toNat % 2 = 1 → j.frame = f → frameOk f = true →
         s.tableAt f j.table = some t → t.rowAt j.row = some r →
         (∃ op, j.body = .carry op) ∨ (∃ w img, j.body = .rowWrite w img) ∨ (∃ old new, j.body = .switch old new) ∨
           (∃ old new, j.body = .relocate old new) →
         (j.mseq = 0 ∨ lasts.getD f 0 < j.mseq → exec (.journalReplay c) s = .next ((s.replayRow f r j).completeOk c 1)) ∧
         (0 < j.mseq → j.mseq ≤ lasts.getD f 0 → exec (.journalReplay c) s = .next (s.completeOk c 0)))))

/-! ## The pair -/

/-- R98, R99, R102: a stream record that the secondary receives is written, data and side bytes, into the same tier and burst,
and acknowledged by the highest SEQ written; an acknowledgement takes the records and resent regions up to its SEQ off the
primary's lists, and a frame with none left and lanes up is CLEAN; a dirty region is sent again after the earlier records; a
burst asked for is sent as the stream's next record. R100: the primary sends the digest of a mirrored region in which no write
is in flight; the secondary answers with its own once it has written up to the SEQ, each charged to its own scrub tally (R352);
a region whose digests differ is dirty, and MIRROR_REPAIRS rises by 1; equal digests change nothing but that the comparison is
over. Choices of the model that this rests on: log 63. -/
def Obligations.MirrorKeepsTwinEqual : Prop :=
  (∀ (f : Nat) (s : State), frameOk f = true → s.pairUp f = true →
     let st := (s.frame f).stream
     (∀ r : StreamRec, r.seq < 2 ^ 64 - 1 → r.burst * 64 + 64 ≤ r.tier.bytes → r.data.length = 64 → r.side.length = 4 →
       s.isSecondary = true → Runs (.streamRecord f (.burst r)) s fun t =>
         let u : Unit64 := ⟨f, r.tier, r.burst⟩
         t.devBytes u.place 64 = r.data ∧ t.sideBytes u = r.side ∧ t.badBurst u = (s.mem.restoring.contains u.pageFrame || s.mem.retired.contains u.pageFrame) ∧
         (t.frame f).stream.written = max st.written (r.seq + 1) ∧ (t.frame f).stream.unacked = st.unacked ∧
         t.mem.scratch = s.mem.scratch ∧ t.beads = s.beads ∧
         (st.digests = [] → (s.frame f).streamUp = true →
           t.twin.sent = s.twin.sent ++ [(f, 0x02, [max st.written (r.seq + 1) - 1])])) ∧
     (∀ seq, s.twin.role = 1 → s.twin.handover = none → (∀ y ∈ s.cmds, y.d.opcode ≠ 0x09 ∧ y.d.opcode ≠ 0x0A) → Runs (.streamAck f seq) s fun t =>
       let un := st.unacked.filter fun r => decide (seq < r.seq)
       let re := st.resent.filter fun q => decide (seq < q.2)
       (t.frame f).stream.unacked = un ∧ (t.frame f).stream.resent = re ∧ (t.frame f).stream.dirty = st.dirty ∧
         ((s.frame f).streamUp = true → un.length < 65536 → st.dirty = [] → re = [] → t.twin.mirrorOf f = 0) ∧ t.mem = s.mem ∧
         ((∀ q ∈ st.resent, seq < q.2) → t.beads = s.beads)) ∧
     (∀ d, s.twin.role = 1 → (s.frame f).streamUp = true → st.dirty = [d] → d.frame = f → st.unacked.length + 1024 ≤ 65536 →
       (∀ u ∈ d.pageBursts, s.badBurst u = false) → (∀ y ∈ s.cmds, y.d.opcode ≠ 0x09 ∧ y.d.opcode ≠ 0x0A) → Runs (.dirtyResend f) s fun t =>
         let st' := (t.frame f).stream
         st'.dirty = [] ∧ st'.nextSeq = st.nextSeq + 1024 ∧ st'.resent = st.resent ++ [(d, st.nextSeq + 1023)] ∧
         st'.unacked.length = st.unacked.length + 1024 ∧ st'.unacked.take st.unacked.length = st.unacked ∧ t.mem = s.mem) ∧
     (∀ tier b, (b * 64 + 64 ≤ tier.bytes) →
       let u : Unit64 := ⟨f, tier, b⟩
       (s.badBurst u = true → exec (.burstReq f tier b) s = .next s) ∧
       (s.badBurst u = false → s.twin.role = 1 → s.burstMirrored u = true → (s.frame f).streamUp = true →
         st.unacked.length < 65536 → (∀ q ∈ st.resent, q.1 ≠ u.pageFrame) → Runs (.burstReq f tier b) s fun t =>
           (t.frame f).stream.unacked = st.unacked ++ [⟨st.nextSeq, tier, b, s.sideBytes u, s.devBytes u.place 64⟩] ∧
           (t.frame f).stream.nextSeq = st.nextSeq + 1 ∧ t.mem = s.mem))) ∧
  (∀ (f : Nat) (tier : Tier) (region seq : Nat) (value : Word64) (s : State), frameOk f = true → s.pairUp f = true →
     let g : Unit64 := ⟨f, tier, region⟩
     let st := (s.frame f).stream
     (∀ u, s.twin.role = 1 → (s.frame f).streamUp = true → s.pageMirrored g = true → st.inFlight g = false →
       st.swept.contains g = false → s.chargeScrub f 1024 = some u → Runs (.mirrorSweep f tier region) s fun t =>
         (t.frame f).stream.swept = st.swept ++ [g] ∧ (t.frame f).tally.scrub = (s.frame f).tally.scrub + 1024 ∧
         t.twin.sent = s.twin.sent ++ [(f, 0x06, [tier.num, region, st.nextSeq - 1, (s.regionDigest g).toNat])]) ∧
     (∀ u, s.isSecondary = true → seq < st.written → st.digests = [] → (s.frame f).streamUp = true → s.chargeScrub f 1024 = some u →
       Runs (.digest f tier region seq value) s fun t => (t.frame f).stream.digests = [] ∧
         (t.frame f).tally.scrub = (s.frame f).tally.scrub + 1024 ∧
         t.twin.sent = s.twin.sent ++ [(f, 0x06, [tier.num, region, seq, (s.regionDigest g).toNat])]) ∧
     (s.isSecondary = true → st.written ≤ seq → 0 < seq → st.digests = [] → Runs (.digest f tier region seq value) s fun t =>
       (t.frame f).stream.digests = [(g, seq, value)] ∧ t.twin.sent = s.twin.sent) ∧
     (s.twin.role = 1 → st.swept = [g] → s.regionDigest g = value → Runs (.digest f tier region seq value) s fun t =>
       (t.frame f).stream.swept = [] ∧ (t.frame f).stream.dirty = st.dirty ∧ t.twin = s.twin) ∧
     (s.twin.role = 1 → st.swept = [g] → s.regionDigest g ≠ value → Runs (.digest f tier region seq value) s fun t =>
       (t.frame f).stream.swept = [] ∧ g ∈ (t.frame f).stream.dirty ∧ t.twin.repairs = inc32 s.twin.repairs))

/-- R99, R101, R103, R391, R393: silence of every lane takes every frame DOWN with what was not acknowledged dirty; a primary
that still hears nothing fences itself; a secondary that does not rejoin asserts the fence signal and asks every frame for the
quiescent point at which it becomes primary, as HANDOVER does once it has written every frame's last SEQ; the fence signal holds
the other module in reset until it is released on both connectors, TW0 and TW4 (R468). R264, R381, R382, R384, R96, R103: HELLO
keeps the twin's ID and role, ends silence, and settles a module without a role: it rejoins a primary in its epoch; PAIR_EVENT
counts at the bead in the running step or is kept for the next one; AT_RISK is kept for its frame; a forwarded operation is
dispatched, or kept while it must wait (R102); an acknowledgement takes the operations up to its number off the list. Choices of
the model that this rests on: logs 57, 58, 64, 65, 102. -/
def Obligations.SilenceAndTwinMessages : Prop :=
  (∀ (s : State) (boot : List BootFrame) (tw4 : Bool),
     (s.up = true → s.twin.paired = true → s.twin.far = false → Runs .twinSilence s fun t => t.twin.silence = true ∧
       ∀ f < 20, (t.frame f).streamUp = false ∧ t.twin.mirrorOf f = 2 ∧ (t.frame f).stream.unacked = [] ∧
         ∀ r ∈ (s.frame f).stream.unacked, (⟨f, r.tier, r.burst / 1024⟩ : Unit64) ∈ (t.frame f).stream.dirty) ∧
     (s.up = true → s.twin.paired = true → s.twin.silence = true → s.twin.role = 1 → Runs (.silenceSelfFence boot) s fun t =>
       t.ka.twinFence = true ∧ t.firings = [] ∧ t.cmds = [] ∧ t.mem.dram = []) ∧
     (s.up = true → s.twin.paired = true → s.twin.silence = true → s.twin.role = 2 → Runs .silenceFenceAssert s fun t =>
       t.twin.fenceOut = true ∧ (∀ f < 20, FrameAction.promoteTwin ∈ (t.frame f).actions) ∧ t.mem = s.mem ∧ t.firings = s.firings) ∧
     (s.up = true → s.twin.paired = true → s.twin.role = 2 →
       (∀ last : List Nat, (∀ f < 20, (s.frame f).fenced = true ∨ last.getD f 0 < (s.frame f).stream.written) →
         Runs (.handover last) s fun t => (∀ f < 20, FrameAction.promoteTwin ∈ (t.frame f).actions) ∧ t.mem = s.mem) ∧
       (∀ (last : List Nat) (f : Nat), f < 20 → (s.frame f).fenced = false → (s.frame f).stream.written ≤ last.getD f 0 →
         last.getD f 0 ≠ 0 → exec (.handover last) s = .next s)) ∧
     (s.seqr.twinFence = false → s.sampled = true → Runs (.twinFenceIn tw4) s fun t => t.seqr.twinFence = true ∧
       t.seqr.phase = .step3 ∧ t.ka.twinFence = true ∧ t.firings = [] ∧ ∀ p < 4, (t.port p).state = 0) ∧
     (s.seqr.twinFence = true → s.seqr.phase = .step3 → s.seqr.resetPin = false → s.seqr.thermal = false →
       s.ka.bootHold = false → setBit s.seqr.fenceIn (bit tw4) false = 0 →
       Runs (.twinFenceRelease boot tw4) s fun t => t.seqr.twinFence = false ∧ t.seqr.phase ≠ .step3) ∧
     (s.seqr.twinFence = true → setBit s.seqr.fenceIn (bit tw4) false ≠ 0 → exec (.twinFenceRelease boot tw4) s =
       .next { s with seqr := { s.seqr with fenceIn := setBit s.seqr.fenceIn (bit tw4) false } }) ∧
     (s.seqr.twinFence = false → s.up = true → s.twin.fenceOut = true → s.twin.role = 1 →
       exec (.twinFenceRelease boot tw4) s = .next { s with twin := { s.twin with fenceOut := false } }) ∧
     (s.twin.role = 2 → s.twin.silence = true → (∀ w ∈ s.twin.fwds, ∀ c, w.2.2.2 ≠ .command c) →
       (∀ w ∈ s.twin.fwds, ∀ c, w.2.2.2 ≠ .forwarded c) →
       s.becomePrimary.twin.role = 1 ∧ s.becomePrimary.twin.epoch = s.twin.epoch + 1 ∧ s.becomePrimary.twin.fwds = [] ∧
       s.becomePrimary.twin.fwdLost = sat32 (s.twin.fwdLost + s.twin.fwds.length) ∧
       ∀ f < 20, s.becomePrimary.twin.mirrorOf f = 2 ∧ (s.becomePrimary.frame f).stream.nextSeq = 0)) ∧
  (∀ (f : Nat) (s : State), frameOk f = true → s.pairUp f = true →
     (∀ (m : HelloMsg) (boot : List BootFrame), s.twin.far = false → s.twin.role = 0 → m.role = 1 → s.twin.band2 = false →
       Runs (.hello f m boot) s fun t => t.twin.role = 3 ∧ t.twin.epoch = m.epoch ∧ t.twin.peerId = m.moduleId ∧
         t.twin.peerRole = 1 ∧ t.twin.silence = false ∧ ∀ k < 20, (t.frame k).stream.written = 0) ∧
     (∀ (m : HelloMsg) (boot : List BootFrame), s.twin.far = false → s.twin.role = 1 → m.role = 2 → s.twin.band2 = false →
       exec (.hello f m boot) s = .next { s with twin := { s.twin with
         peerId := m.moduleId, peerRole := 2, helloSeen := true, silence := false } }) ∧
     (∀ (b : BeadId) (k : BitVec 5) (g : Firing), b.ok = true → b.frame = f →
       (s.firings.find? fun x => x.rods.contains b.rod) = some g →
       (∀ st, g.step = some st → exec (.pairEvent b k) s = .next (s.bump b k.toNat)) ∧
       (g.step = none → exec (.pairEvent b k) s = .next (s.modFiring g.handle fun g => { g with
         keptEvents := g.keptEvents ++ [(b, k.toNat)] }))) ∧
     (∀ band : BitVec 2, s.twin.band2 = false → Runs (.atRisk f band) s fun t =>
       inMask t.twin.peerHot f = decide (2 ≤ band.toNat) ∧ (∀ k < 20, k ≠ f → inMask t.twin.peerHot k = inMask s.twin.peerHot k) ∧
       t.mem = s.mem ∧ t.frames = s.frames) ∧
     (∀ num op t, s.dispatch f op (.forwarded num) = some t → exec (.carryFwd f num op) s = .next t) ∧
     (∀ num op, s.dispatch f op (.forwarded num) = none →
       exec (.carryFwd f num op) s = .next (s.holdOp f op (.forwarded num) none)) ∧
     (∀ num, (∀ w ∈ s.twin.fwds, ∃ b h, w.2.2.2 = .step b h) → Runs (.fwdAck num) s fun t =>
       t.twin.fwds = (s.twin.fwds.filter fun w => decide (num < w.1)) ∧ t.mem = s.mem ∧ t.frames = s.frames ∧ t.cmds = s.cmds))

/-! ## Memory tiers -/

/-- R47, R236, R237, R238, R384: a sample moves the band by the entry temperatures 85, 95 and 105 °C up and the exit temperatures
82 and 92 °C down; band 3 trips the module; three samples in a row without a report are band 2 and lost; the controller's
action follows the band; a stack that enters band 2 is met by every FIRING_RUN in flight, which completes at risk where its firing
names the frame. -/
def Obligations.StackBandsFollowSamples : Prop :=
  ∀ (f : Nat) (v : Int) (s : State), frameOk f = true → s.up = true → (s.frame f).fenced = false → s.twin.band2 = false →
    let m := (s.frame f).mem
    (m.band ≤ 2 → v < 105 → Runs (.hbmTempSample f (some v)) s fun t =>
      (t.frame f).mem.band = (if 95 ≤ v then 2 else if m.band = 2 ∧ 92 < v then 2 else if 85 ≤ v then 1
        else if 1 ≤ m.band ∧ 82 < v then 1 else 0) ∧
      (t.frame f).mem.missed = 0 ∧ (t.frame f).mem.lost = false ∧ t.mem = s.mem ∧
      (m.band < 2 → 95 ≤ v → ∀ c x, s.cmd c = some x → x.d.opcode = 0x02 → ∃ y, t.cmd c = some y ∧
        y = { x with hot := y.hot } ∧ ∀ i : Image, i.names f = true → y.met i = true)) ∧
    (m.band ≤ 3 → 105 ≤ v → exec (.hbmTempSample f (some v)) s = .next (s.modFrame f fun x => { x with mem := { x.mem with
      missed := 0, lost := false } }).trip) ∧
    (m.missed < 2 → Runs (.hbmTempSample f none) s fun t => OnlyFrame f s t ∧ (t.frame f).mem.missed = m.missed + 1 ∧
      (t.frame f).mem.band = m.band) ∧
    (2 ≤ m.missed → Runs (.hbmTempSample f none) s fun t => (t.frame f).mem.lost = true ∧ (t.frame f).mem.band = 2) ∧
    (Runs (.bandAction f) s fun t => OnlyFrame f s t ∧ (t.frame f).mem.action = m.band ∧ (t.frame f).mem.band = m.band)

/-- R240, R241, R243, R245: the scrubber counts a corrected error, and poisons and counts a burst with an uncorrectable one,
each charged one unit of the scrub tally; page frames are restored in ascending order, and one restored from the twin holds the
twin's bytes, and no burst of it is bad. R44, R244, R245, R246, R458: a channel or package that fails training, or whose errors
call for it, goes out of the usable ones: its page frames are lost or restoring, MEMMAP_STATE leaves IDLE, and the firings are
checked again; errors that do not call for it change nothing. The choice that follows retires its page frames and moves those in
use to the targets given (in a second MAP_OUT: the model's choice, log 61); a unit that is out and has its choice changes
nothing; the twin's MAPOUT retires the same page frames here. Choices of the model that this rests on: logs 4, 61, 80. -/
def Obligations.MemoryFailuresAndRepairs : Prop :=
  (∀ (f : Nat) (tier : Tier) (s : State), frameOk f = true → s.up = true →
     (∀ (b : Nat) (u : State), b * 64 + 64 ≤ tier.bytes → (s.frame f).fenced = false → s.chargeScrub f 1 = some u →
       s.badBurst ⟨f, tier, b⟩ = false →
       let k := (s.frame f).counters
       (Runs (.scrub f tier b .clean) s fun t => t.mem = s.mem ∧ (t.frame f).counters = k ∧
         (t.frame f).tally.scrub = (s.frame f).tally.scrub + 1) ∧
       (Runs (.scrub f tier b .correctable) s fun t => t.mem = s.mem ∧
         (t.frame f).counters = { k with memCe := inc32 k.memCe }) ∧
       (Runs (.scrub f tier b .uncorrectable) s fun t => t.badBurst ⟨f, tier, b⟩ = true ∧ t.mem.dram = s.mem.dram ∧
         (t.frame f).counters = { k with memUe := inc32 k.memUe } ∧
         ∀ u : Unit64, u ≠ ⟨f, tier, b⟩ → t.badBurst u = s.badBurst u)) ∧
     (∀ (page : Nat) (data side : List Byte), s.restoresNext ⟨f, tier, page⟩ = false →
       exec (.pageRestore f tier page data side) s = .next s) ∧
     (∀ (page : Nat) (data side : List Byte), s.restoresNext ⟨f, tier, page⟩ = true → data.length = 65536 →
       s.mem.retired.contains ⟨f, tier, page⟩ = false → (s.frame f).cold = [] → Runs (.pageRestore f tier page data side) s fun t =>
         t.devBytes ⟨f, tier, page * 65536⟩ 65536 = data ∧ (⟨f, tier, page⟩ : Unit64) ∉ t.mem.restoring ∧
         ∀ i < 1024, t.badBurst ⟨f, tier, page * 1024 + i⟩ = false)) ∧
  (∀ (f : Nat) (s : State), frameOk f = true → s.up = true → (s.frame f).fenced = false →
     (∀ u training moves, u.ok = true → (s.frame f).kiln.absent = false →
       let m := (s.frame f).mem
       (m.isOut u = true → m.choosing.contains u = false → exec (.mapOut f u moves training) s = .next s) ∧
       (m.isOut u = false → training = false → s.mapOutDue f u = false → exec (.mapOut f u moves training) s = .next s) ∧
       (m.isOut u = false → training = true ∨ s.mapOutDue f u = true → Runs (.mapOut f u moves training) s fun t =>
         (match u with
           | .channel c => (t.frame f).mem.chOut = m.chOut ++ [c]
           | .package p => (t.frame f).mem.pkgOut = m.pkgOut ++ [p]) ∧
         (t.frame f).mem.choosing = m.choosing ++ [u] ∧ (t.frame f).mem.mapState ≠ 0 ∧ t.mem.dram = s.mem.dram ∧
         (∀ p ∈ affectedPages u, ∀ i < 1024, t.badBurst ⟨f, unitTier u, p * 1024 + i⟩ = true) ∧
         (∀ g ∈ s.firings, ∀ k < 20, inMask g.img.ownFrames k = true → FrameAction.recheck ∈ (t.frame k).actions)) ∧
       (m.isOut u = true → m.choosing.contains u = true → s.movesOk (s.retireOf f u moves) = false →
         exec (.mapOut f u moves training) s = .next s) ∧
       (m.isOut u = true → m.choosing.contains u = true → s.movesOk (s.retireOf f u moves) = true →
         Runs (.mapOut f u moves training) s fun t => u ∉ (t.frame f).mem.choosing ∧
           ∀ p ∈ (s.retireOf f u moves).retired, (⟨f, unitTier u, p⟩ : Unit64) ∈ t.mem.retired)) ∧
     (∀ (tier : Tier) (retired : List Nat), s.twin.paired = true → s.targetsOk ⟨f, tier, retired, []⟩ = true →
       Runs (.mapout f tier retired []) s fun t => ∀ p ∈ retired, (⟨f, tier, p⟩ : Unit64) ∈ t.mem.retired))

/-! ## Host ports -/

/-- R326, R327: a window access uses the pending base while a slide is pending; a read of a page that the walk finds in the DRAM
of a frame returns its bytes, with poison where a burst is bad or found so by this read (R241); a write is stored there. An
access that the walk refuses reads as all ones or is discarded, and counts in HOST_WIN_ERRS; so is a write to a page without
WRITE; a write to a BUSY page waits, and so does every access behind one that waits (the order is the model's choice, log 111).
R326, R329, R330: a WIN_BASE write makes the base pending and starts back-invalidation of every shared page; the slide is done,
with every bias bit 0, when nothing waits; a bias bit is set on a CXL port for a page that may be shared, and otherwise refused;
it is cleared once the host has answered. Choices of the model that this rests on: logs 4, 111. -/
def Obligations.WindowAccessesReachMemory : Prop :=
  (∀ (p off : Nat) (found : List BurstFound) (s : State), portOk p = true → s.portUp p = true →
     let va := (s.port p).baseNow + off
     let walk := s.walkAt (s.portFrame p) p va
     (∀ len, 0 < len → off + len ≤ 2 ^ 28 → va % 65536 + len ≤ 65536 → (s.port p).winWaits ≠ [] →
       Runs (.windowRead p off len found) s fun t => OnlyPort p s t ∧
         t.port p = { s.port p with winWaits := (s.port p).winWaits ++ [⟨va, [], len, found⟩] }) ∧
     (∀ bs : List Byte, 0 < bs.length → off + bs.length ≤ 2 ^ 28 → va % 65536 + bs.length ≤ 65536 → (s.port p).winWaits ≠ [] →
       Runs (.windowWrite p off bs) s fun t => OnlyPort p s t ∧
         t.port p = { s.port p with winWaits := (s.port p).winWaits ++ [⟨va, bs, 0, []⟩] }) ∧
     (∀ len, 0 < len → off + len ≤ 2 ^ 28 → va % 65536 + len ≤ 65536 → (s.port p).winWaits = [] →
       (∀ k, walk = .bad k → Runs (.windowRead p off len found) s fun t =>
         (t.port p).tx = (s.port p).tx ++ [.windowRead (List.replicate len 0xFF#8) false] ∧
         (t.port p).winErrs = inc32 (s.port p).winErrs ∧ t.mem = s.mem) ∧
       (∀ w u, walk = .leaf w →
         let l := Leaf.ofWord w
         let q := l.place.add (va % 65536)
         l.loc ≤ 1 → (s.fillTlb (s.portFrame p) p va).chargeHost p l.frame len = some u → Runs (.windowRead p off len found) s fun t =>
           let v := u.findErrors (q.bursts len) found
           (t.port p).tx = (s.port p).tx ++ [.windowRead (s.devBytes q len) (v.badRead q len)] ∧ t.mem = v.mem ∧
           t.mem.dram = s.mem.dram ∧
           (t.port p).winErrs = (s.port p).winErrs)) ∧
     (∀ bs : List Byte, 0 < bs.length → off + bs.length ≤ 2 ^ 28 → va % 65536 + bs.length ≤ 65536 → (s.port p).winWaits = [] →
       (∀ k, walk = .bad k → Runs (.windowWrite p off bs) s fun t =>
         (t.port p).winErrs = inc32 (s.port p).winErrs ∧ t.mem = s.mem) ∧
       (∀ w u, walk = .leaf w →
         let l := Leaf.ofWord w
         let q := l.place.add (va % 65536)
         (l.loc ≤ 1 → l.write = true → l.busy = true → Runs (.windowWrite p off bs) s fun t =>
           (t.port p).winWaits = (s.port p).winWaits ++ [⟨va, bs, 0, []⟩] ∧ t.mem = s.mem) ∧
         (l.write = false → Runs (.windowWrite p off bs) s fun t =>
           (t.port p).winErrs = inc32 (s.port p).winErrs ∧ t.mem = s.mem) ∧
         (l.loc ≤ 1 → l.write = true → l.busy = false → s.twin.role = 1 → s.badRead q bs.length = false →
           (s.fillTlb (s.portFrame p) p va).chargeHost p l.frame bs.length = some u → Runs (.windowWrite p off bs) s fun t =>
             t.devBytes q bs.length = bs ∧
             (∀ a, (a < q.key ∨ q.key + bs.length ≤ a) → t.mem.dram.get a = s.mem.dram.get a) ∧
             (t.port p).winErrs = (s.port p).winErrs)))) ∧
  (∀ (p page : Nat) (s : State), portOk p = true → page < 4096 → s.portUp p = true →
     let x := s.port p
     (∀ w : Word64, Runs (.winBaseWrite p w) s fun t => OnlyPort p s t ∧
       t.port p = { x with slideTo := some (w.extractLsb' 28 24), clearing := x.shared }) ∧
     (∀ b, x.slideTo = some b → x.winWaits = [] → x.clearing = [] → Runs (.winSlideDone p) s fun t => OnlyPort p s t ∧
       t.port p = { x with winBase := b, slideTo := none, shared := [] }) ∧
     (x.winWaits ≠ [] ∨ x.clearing ≠ [] → Runs (.winSlideDone p) s fun t => OnlyPort p s t ∧ t.port p = x) ∧
     (x.cxl = true → x.shared.contains page = false → Runs (.biasSet p page) s fun t => OnlyPort p s t ∧
       t.port p = if s.mayShare p page then { x with shared := x.shared ++ [page] } else { x with biasRefused := true }) ∧
     (x.cxl = false → exec (.biasSet p page) s = .next s) ∧
     (x.cxl = true → x.shared.contains page = true → x.clearing.contains page = false → Runs (.biasClear p page) s fun t =>
       OnlyPort p s t ∧ t.port p = { x with clearing := x.clearing ++ [page] }) ∧
     (x.clearing = [page] → Runs (.birsp p page) s fun t => OnlyPort p s t ∧
       t.port p = { x with clearing := [], shared := x.shared.filter fun k => decide (k ≠ page) }) ∧
     (x.clearing.contains page = false → x.shared.contains page = true → x.answered.contains page = false →
       Runs (.birsp p page) s fun t => OnlyPort p s t ∧ t.port p = { x with answered := x.answered ++ [page] }))

/-- R322, R334, R335, R336: hot reset, function-level reset, D3hot, link down, viral on a CXL link, 100 ms of recovery and PERST
each take a port that is not down DOWN: its EPOCH rises, its transmit queue is empty, its rings are OFF or DRAINING and
disabled, and the commands of the port that go on are marked; other ports, beads, firings and scratch keep what they hold. A
port that is down stays so; PERST marks RESET_CAUSE as well. R283, R323, R334, R341, R342, R446: a link in recovery is
RETRAINING and comes back to the state before it; a port that is down comes up DETACHED in the mode that its link trained;
ATTACH makes a DETACHED port ATTACHED; SHADOW_HEAD and FAULT_RING_HEAD pass written entries only, and another write is counted
in SETUP_ERRS and changes neither. Choices of the model that this rests on: logs 7, 91. -/
def Obligations.PortsGoDownAndComeUp : Prop :=
  (∀ (p acked : Nat) (s : State), portOk p = true → s.up = true → (s.port p).state ≠ 0 →
     (∀ r < 64, ((s.port p).ring r).held = []) → (∀ u ∈ (s.port p).unacked, u.cmd.port = p) →
     let down := fun t : State =>
       (t.port p).state = 0 ∧ (t.port p).epoch = (s.port p).epoch + 1 ∧ (t.port p).tx = [] ∧
       (∀ r < 64, ((t.port p).ring r).enable = false ∧
         ((t.port p).ring r).state = if ((s.port p).ring r).state = 0 then 0 else 4) ∧
       (∀ c x, s.cmd c = some x → x.port = p → ∃ y, t.cmd c = some y ∧ y.down = some (x.down.getD ((s.port p).epoch + 1)) ∧
         y.phase = x.phase) ∧
       (∀ q, q ≠ p → { t.port q with msix := (s.port q).msix } = s.port q) ∧ t.beads = s.beads ∧ t.firings = s.firings ∧
       t.mem.scratch = s.mem.scratch
     Runs (.hotReset p acked) s down ∧ Runs (.functionLevelReset p acked) s down ∧ Runs (.d3hotEntry p acked) s down ∧
     Runs (.dlDown p acked) s down ∧ ((s.port p).cxl = true → Runs (.viral p acked) s down) ∧
     ((s.port p).cxl = false → exec (.viral p acked) s = .next s) ∧
     ((s.port p).state = 3 → Runs (.recoveryTimeout p acked) s down) ∧
     ((s.port p).state ≠ 3 → exec (.recoveryTimeout p acked) s = .next s) ∧
     Runs (.perst p acked) s fun t => down t ∧ inMask t.ka.perst p = true ∧ inMask t.seqr.perst p = true) ∧
  (∀ (p : Nat) (s : State), portOk p = true → s.up = true →
     let x := s.port p
     (x.state = 1 ∨ x.state = 2 → Runs (.linkRecovery p true) s fun t => OnlyPort p s t ∧
       t.port p = { x with state := 3, beforeRetrain := x.state }) ∧
     (x.state = 3 → (s.part p).faults.waiting = [] → Runs (.linkRecovery p false) s fun t => OnlyPort p s t ∧ t.port p = { x with state := x.beforeRetrain }) ∧
     (∀ cxl flit speed width, hostLinkOk cxl flit speed width = true → (s.frame (s.portFrame p)).fenced = false → x.state = 0 →
       Runs (.hostLinkUp p cxl flit speed width) s fun t => t.mem = s.mem ∧ t.cmds = s.cmds ∧
         (t.port p).state = 1 ∧ (t.port p).cxl = cxl ∧ (t.port p).flit = flit ∧ (t.port p).speed = speed ∧
         (t.port p).width = width ∧ (t.port p).epoch = x.epoch ∧ (cxl = false → (t.port p).shared = [])) ∧
     (∀ v : Word64, x.state = 1 → (s.part p).faults.waiting = [] → v.getLsbD 0 = true → Runs (.attach p v) s fun t =>
       t.port p = { x with state := 2 } ∧ (∀ q, q ≠ p → t.port q = s.port q) ∧ t.mem = s.mem) ∧
     (∀ v : Word64, v.getLsbD 0 = false → exec (.attach p v) s = .next s) ∧
     (∀ v : Word64, x.state ≠ 0 →
       let d := (v.extractLsb' 0 14 - x.shadowHead).toNat
       Runs (.shadowHeadWrite p v) s fun t => OnlyPort p s t ∧ t.port p =
         if d ≤ x.shadowUnread then { x with shadowHead := v.extractLsb' 0 14, shadowUnread := x.shadowUnread - d }
         else { x with setupErrs := inc32 x.setupErrs }) ∧
     (∀ v : Word64, x.state ≠ 0 → s.partExists p = true →
       let q := (s.part p).faults
       let h := bits v.toNat 10 0
       let d := (h + 1025 - q.ringHead) % 1025
       (1024 < h ∨ q.unread < d → Runs (.faultRingHeadWrite p v) s fun t => OnlyPort p s t ∧
         t.port p = { x with setupErrs := inc32 x.setupErrs }) ∧
       (h ≤ 1024 → d ≤ q.unread → q.waiting = [] → Runs (.faultRingHeadWrite p v) s fun t =>
         (t.part p).faults.ringHead = h ∧ (t.part p).faults.unread = q.unread - d ∧ t.port p = x)))

/-! ## Tallies, the cone loop, accounting -/

/-- R361, R362, R364, R365, R405: a sample of the cone loop raises the supply by 5 mV, to 620 mV at most, where RATE is below TARGET + 20,
lowers it by 5 mV, to 480 mV at least, where power is above the cap and RATE allows it; power above the cap where no lower
voltage is allowed is CAP_OVERRIDDEN, with vector 1 to the partition. While the kiln is absent the guard only raises.
FRAME_CAP_f takes 20 to 95 and SPEED_f 700 to 1,000; another value is counted in SETUP_ERRS. -/
def Obligations.ConeLoopMoves : Prop :=
  ∀ (f rate power : Nat) (s : State), frameOk f = true → s.up = true → rate < 1024 → (∀ x ∈ s.cmds, x.phase ≠ .busy) → s.smbus.waiting = none →
    let c := (s.frame f).cone
    let need := c.target + 20
    (480 ≤ c.mv → Runs (.coneSample f rate power) s fun t =>
      let c' := (t.frame f).cone
      c'.rate = rate ∧ c'.cap = c.cap ∧ c'.speed = c.speed ∧ c'.target = c.target ∧ 480 ≤ c'.mv ∧
      (rate < need → c'.mv = min (c.mv + 5) 620) ∧
      (need + 20 ≤ rate → c.cap * 10 < power → c.slow = 0 → (s.frame f).kiln.absent = false → c'.mv = max (c.mv - 5) 480) ∧
      (need ≤ rate → (s.frame f).kiln.absent = true → c'.mv = c.mv) ∧
      (c.cap * 10 < power → rate < need + 20 → c'.overridden = true) ∧
      (power ≤ c.cap * 10 → c'.overridden = c.overridden) ∧
      (c.overridden = false → c.cap * 10 < power → rate < need + 20 → ∀ n < 4, inMask (s.part n).frames f = true →
        inMask (t.part n).capStatus f = true ∧ 1 ∈ (t.port n).msix) ∧ t.mem = s.mem ∧ t.firings = s.firings) ∧
    (∀ (p : Nat) (w : Word64), portOk p = true → s.portUp p = true →
      let v := bits w.toNat 6 0
      let u := bits w.toNat 9 0
      (inMask (s.part p).frames f = false → exec (.frameCapWrite p f w) s = .next s ∧ exec (.speedWrite p f w) s = .next s) ∧
      (inMask (s.part p).frames f = true →
        (v < 20 ∨ 95 < v → exec (.frameCapWrite p f w) s = .next (s.setupErr p)) ∧
        (20 ≤ v → v ≤ 95 → Runs (.frameCapWrite p f w) s fun t => OnlyFrame f s t ∧
          t.frame f = { s.frame f with cone := { c with cap := v } }) ∧
        (u < 700 ∨ 1000 < u → exec (.speedWrite p f w) s = .next (s.setupErr p)) ∧
        (700 ≤ u → u ≤ 1000 → Runs (.speedWrite p f w) s fun t => OnlyFrame f s t ∧
          t.frame f = { s.frame f with cone := { c with speed := u } })))

/-- R351, R352, R353, R354, R365: a request takes its units where the counter holds them, or where it exceeds a whole refill and
the counter is full; a period ends with each counter's debt reduced by its refill, the requests that waited counted, the quotas
anew, and the window accesses, carry operations and digests that wait try again; 50 µs into it the unused quotas go to the pool;
energy above the cap joins CAP_EXCESS. R359: ACCT_FREE frees a record whose STATE is 3, and is ignored for another. Choices of
the model that this rests on: log 4. -/
def Obligations.TalliesRefill : Prop :=
  (∀ (f power : Nat) (s : State), frameOk f = true → s.up = true →
     (exec (.tallyPeriod f power) s = .next ((((((s.countHolds f).refill f).modFrame f fun x =>
       { x with cone := x.cone.period power }).forEach (List.range 4) State.retryWindow).retryOps).answerDigests f)) ∧
     (s.heldOps = [] → (s.frame f).stream.digests = [] → (∀ p < 4, (s.port p).winWaits = []) → Runs (.tallyPeriod f power) s fun t =>
       let a := (s.frame f).tally
       let b := (t.frame f).tally
       b.released = false ∧ b.held = [] ∧ b.scrub = a.scrub - 40000 ∧
       (Sparse.wf 0 a.remainder = true → ∀ n < 4, ∀ k < 16,
         Sparse.read 0 b.remainder (n * 16 + k) = Sparse.read 0 a.remainder (n * 16 + k) - s.remainderOf n f k) ∧
       (Sparse.wf 0 a.window = true → ∀ n < 4,
         Sparse.read 0 b.window n = Sparse.read 0 a.window n - (s.part n).winCarryOf f) ∧
       (t.frame f).cone = (if (s.frame f).cone.cap * 10 < power then { (s.frame f).cone with
           excess := sat64 ((s.frame f).cone.excess + (power - (s.frame f).cone.cap * 10) * 10) }
         else { (s.frame f).cone with overridden := false }) ∧
       (∀ n k, n < 4 → k < 10 → a.held = [n * 16 + k] →
         Sparse.read 0 (t.part n).holds k = inc32 (Sparse.read 0 (s.part n).holds k)) ∧
       t.mem = s.mem ∧ t.beads = s.beads ∧ t.firings = s.firings) ∧
     (Runs (.quotaPoolRelease f) s fun t => OnlyFrame f s t ∧
       t.frame f = { s.frame f with tally := { (s.frame f).tally with released := true } }) ∧
     (∀ n k u v, s.chargePart n f k u = some v → OnlyFrame f s v ∧
       { v.frame f with tally := (s.frame f).tally } = s.frame f) ∧
     (∀ n k u, s.remainderOf n f k ≠ 0 → Sparse.read 0 (s.frame f).tally.remainder (n * 16 + k) + u ≤ s.remainderOf n f k →
       ∃ v, s.chargePart n f k u = some v ∧
         Sparse.read 0 (v.frame f).tally.remainder (n * 16 + k) = Sparse.read 0 (s.frame f).tally.remainder (n * 16 + k) + u)) ∧
  (∀ (p : Nat) (w : Word64) (s : State), portOk p = true → s.portUp p = true → s.partExists p = true →
     let k := bits w.toNat 7 0
     let r := Sparse.read AcctRecord.free (s.part p).acct k
     (r.state ≠ 3 → exec (.acctFree p w) s = .next s) ∧
     (r.state = 3 → Runs (.acctFree p w) s fun t => Sparse.read AcctRecord.free (t.part p).acct k = AcctRecord.free ∧
       (∀ j, j ≠ k → Sparse.read AcctRecord.free (t.part p).acct j = Sparse.read AcctRecord.free (s.part p).acct j) ∧
       (∀ q, q ≠ p → t.part q = s.part q) ∧ t.beads = s.beads ∧ t.cmds = s.cmds))

/-! ## Rods -/

/-- R12, R425, R428, R429, R430: a rod that fails is recorded and asks for its substitution at the frame's next quiescent point;
a probe that is answered clears the misses, and the third miss in a row fails the rod; a test of a rod that no firing holds
starts, one of a held rod is refused; a spare that passes its test stays a spare, one that fails is mapped out, and the test
that a partition started shows its result. An error that the rod's code corrects fails no rod; it is counted for the partition
that holds its frame. Choices of the model that this rests on: logs 4, 47. -/
def Obligations.RodsFailAndAreTested : Prop :=
  ∀ (r : RodId) (s : State) (p : Nat), r.ok = true → s.kilnActs r.frame = true →
    let g := (s.frame r.frame).group r.group
    (g.phys r.pos = some p → ∀ cause, cause = .test ∨ cause = .shadow → Runs (.rodFail r cause) s fun t =>
      let h := (t.frame r.frame).group r.group
      p ∈ h.failed ∧ r.pos ∈ h.due ∧ h.map = g.map ∧ h.spares = g.spares ∧ FrameAction.substitute ∈ (t.frame r.frame).actions ∧
        t.firings = s.firings ∧ t.mem = s.mem ∧ t.beads = s.beads) ∧
    (g.phys r.pos = some p → (∀ f ∈ s.firings, f.step = none) → Runs (.rodFail r .memory) s fun t =>
      p ∈ ((t.frame r.frame).group r.group).failed ∧ t.firings = s.firings) ∧
    (Runs (.rodFail r .corrected) s fun t =>
      { t with parts := s.parts } = s ∧ ∀ n < 4, (t.part n) = if s.frameOwner r.frame = some n then
        { s.part n with rodCe := inc32 (s.part n).rodCe } else s.part n) ∧
    (g.phys r.pos = none → exec (.rodFail r .test) s = .next s) ∧
    (g.phys r.pos = some p → g.due.contains r.pos = false →
      (Runs (.livenessProbe r true) s fun t => OnlyFrame r.frame s t ∧
        Sparse.read 0 ((t.frame r.frame).group r.group).missed r.pos = 0) ∧
      (Sparse.read 0 g.missed r.pos < 2 → Runs (.livenessProbe r false) s fun t => OnlyFrame r.frame s t ∧
        Sparse.read 0 ((t.frame r.frame).group r.group).missed r.pos = Sparse.read 0 g.missed r.pos + 1) ∧
      (2 ≤ Sparse.read 0 g.missed r.pos → (∀ f ∈ s.firings, f.step = none) → Runs (.livenessProbe r false) s fun t =>
        p ∈ ((t.frame r.frame).group r.group).failed ∧ FrameAction.substitute ∈ (t.frame r.frame).actions)) ∧
    (∀ (n : Nat) (w : Word64), portOk n = true → (s.port n).state ≠ 0 → s.partExists n = true → w.getLsbD 16 = true →
      RodId.ofRef (w.toNat % 65536) = r → g.phys r.pos = some p →
      (s.rodHeld r = true → Runs (.rodTestStart n w) s fun t => OnlyPart n s t ∧ (t.part n).testRefused = true ∧
        (t.part n).testState = (s.part n).testState) ∧
      (s.rodHeld r = false → inMask (s.part n).frames r.frame = true → (s.part n).testState ≠ 1 →
        Runs (.rodTestStart n w) s fun t => (t.part n).testState = 1 ∧ (t.part n).testOf = some (r.frame, r.group, p) ∧
          p ∈ ((t.frame r.frame).group r.group).testing)) ∧
    (∀ q, q < 128 → g.spares.contains q = true → g.testing.contains q = false → Runs (.spareRodTest r.frame r.group q) s fun t =>
      OnlyFrame r.frame s t ∧ (t.frame r.frame).group r.group = { g with testing := g.testing ++ [q] }) ∧
    (∀ q n, q < 128 → n < 4 → g.spares = [q] → g.testing = [q] → g.posOf q = none → (s.part n).testState = 1 →
      (s.part n).testOf = some (r.frame, r.group, q) →
      (Runs (.rodTestDone r.frame r.group q true) s fun t => (t.part n).testState = 2 ∧
        ((t.frame r.frame).group r.group).spares = [q] ∧ ((t.frame r.frame).group r.group).testing = []) ∧
      (Runs (.rodTestDone r.frame r.group q false) s fun t => (t.part n).testState = 3 ∧
        ((t.frame r.frame).group r.group).spares = [] ∧ q ∈ ((t.frame r.frame).group r.group).failed))

/-! ## Links and the fabric -/

/-- R368, R369, R370, R371, R372, R373: a good flit with the next FSEQ is accepted, one out of order makes the link send one NAK
for the last good flit, one that fails its CRC is discarded and counted, and leaves a gap if it was sequenced (an IDLE with a
bad CRC leaves none: the model's choice, log 110); an acknowledgement frees the replay buffer up to its flit, a NAK has the
flits after it sent again; training ends in L0 with the lanes and the peer found, or MISWIRED on a twin link of another peer; a
link that retrains counts it, and takes its twin stream down. R2, R368: the 256 B of a flit, little-endian: TYPE, VC and NAK in
byte 0, FSEQ and CRED_VC at byte 1, ACK at byte 3, CREDITS at byte 5, 240 B of payload, the CRC-32 of those bytes at byte 0xF6
and six check bytes; a flit that a link emits takes the next FSEQ, acknowledges the last good flit received, and stays in the
replay buffer. Choices of the model that this rests on: logs 4, 30, 110. -/
def Obligations.LinksDeliverInOrder : Prop :=
  (∀ (f k : Nat) (s : State), linkOk f k = true → s.linksUp f = true →
     let l := (s.frame f).link k
     (l.up = true →
       (∀ x : Flit, x.crcGood = true → x.nak = false → x.type ≠ 0 → Runs (.flitReceive f k x) s fun t => OnlyFrame f s t ∧
         let m := (t.frame f).link k
         m.fecCorr = sat32 (l.fecCorr + x.corrected) ∧ m.crcErrs = l.crcErrs ∧
         (x.fseq = l.lastGood + 1 → m.lastGood = x.fseq ∧ m.nakSent = false ∧ m.naks = l.naks ∧
           m.received = l.received ++ [(x.vc, x.payload)]) ∧
         (x.fseq ≠ l.lastGood + 1 → m.lastGood = l.lastGood ∧ m.received = l.received ∧ m.nakSent = true ∧
           m.naks = if l.nakSent then l.naks else l.naks ++ [l.lastGood])) ∧
       (∀ x : Flit, x.crcGood = false → Runs (.flitReceive f k x) s fun t => OnlyFrame f s t ∧
         let m := (t.frame f).link k
         m.crcErrs = inc32 l.crcErrs ∧ m.received = l.received ∧ m.lastGood = l.lastGood ∧ m.replay = l.replay ∧
         (x.type ≠ 0 → m.nakSent = true) ∧ (x.type = 0 → m.nakSent = l.nakSent ∧ m.wire = l.wire)) ∧
       (∀ (ack : BitVec 12) (q : SentFlit) (qs : List SentFlit), l.replay = q :: qs → q.fseq = ack → qs ≠ [] →
         (∀ y ∈ qs, y.resends < 7) → Runs (.nak f k ack) s fun t => OnlyFrame f s t ∧
           let m := (t.frame f).link k
           let again := qs.map fun q => { q with resends := q.resends + 1 }
           m.replay = again ∧ m.wire.length = l.wire.length + again.length ∧ m.state = l.state ∧
           m.replays = min (l.replays + 1) 0xFFFF ∧
           (l.owed = [] → m.wire = l.wire ++ again.map fun q => flitBytes q false 0 l.lastGood 0)) ∧
       (Runs (.linkRetrain f k) s fun t => ((t.frame f).link k).state = 1 ∧
         ((t.frame f).link k).retrains = min (l.retrains + 1) 0xFFFF ∧ (k = 3 → (t.frame f).streamUp = false))) ∧
     (l.up = false → k < 3 → ∀ lanes peer, 2 ≤ lanes → Runs (.linkTraining f k lanes peer) s fun t => OnlyFrame f s t ∧
       ((t.frame f).link k).state = (if 4 ≤ lanes then 2 else 3) ∧ ((t.frame f).link k).peer = peer) ∧
     (l.up = false → ∀ lanes peer, lanes < 2 → Runs (.linkTraining f k lanes peer) s fun t => OnlyFrame f s t ∧
       ((t.frame f).link k).state = 1 ∧ ((t.frame f).link k).lanes = lanes) ∧
     (l.up = false → k = 3 → 4 ≤ l.lanes → ∀ peer,
       (s.twinPeer f peer = false → Runs (.ident f k peer) s fun t => OnlyFrame f s t ∧
         ((t.frame f).link k).state = 4 ∧ ((t.frame f).link k).peer = peer) ∧
       (s.twinPeer f peer = true → Runs (.ident f k peer) s fun t =>
         ((t.frame f).link k).state = 2 ∧ (t.frame f).streamUp = true ∧ t.twin.silence = false))) ∧
  ((∀ (q : SentFlit) (nak : Bool) (vc n : Nat) (ack : BitVec 12), vc < 4 → n < 256 → q.payload.length ≤ 240 →
     let bs := flitBytes q nak vc ack n
     let at_ := fun off k => leNat ((bs.drop off).take k)
     bs.length = 256 ∧ at_ 0 1 = q.type.toNat + q.vc.toNat * 16 + bit nak * 64 ∧ at_ 1 2 = q.fseq.toNat + vc * 4096 ∧
     at_ 3 2 = ack.toNat ∧ at_ 5 1 = n ∧ (bs.drop 6).take q.payload.length = q.payload ∧
     (∀ i, q.payload.length ≤ i → i < 240 → bs[6 + i]? = some 0#8) ∧ at_ 0xF6 4 = crc32 (bs.take 0xF6)) ∧
   (∀ (l : Link) (q : SentFlit),
     let m := l.emit q
     m.nextFseq = l.nextFseq + 1 ∧ m.replay = l.replay ++ [{ q with fseq := l.nextFseq }] ∧
     (∃ vc n, vc < 4 ∧ n ≤ 255 ∧ n ≤ Sparse.read 0 l.owed vc ∧
       m.wire = l.wire ++ [flitBytes { q with fseq := l.nextFseq } false vc l.lastGood n] ∧
       Sparse.read 0 m.owed vc = Sparse.read 0 l.owed vc - n) ∧
     m.lastGood = l.lastGood ∧ m.received = l.received))

/-- R285, R286, R376, R377, R378: a request for this module is served by its window where the window lets the sender in and
covers the access: a read stores nothing and is answered, with POISON where a burst is bad or found so (R241), a write of good
bursts stores its bytes; any other access is rejected and counted. A response closes its transaction; without one the
transaction times out, counted. A transaction for another module is forwarded, or counted and discarded where no route is VALID.
Choices of the model that this rests on: logs 66, 77. -/
def Obligations.FabricServesWindows : Prop :=
  ∀ (f : Nat) (x : Txn) (found : List BurstFound) (s : State), frameOk f = true → s.linksUp f = true →
    (s.arrives x = true → s.farTraffic x = false →
      (Sparse.find s.fabric.windows x.window = none →
        exec (.txnWrite f x) s = .next (s.reject f x) ∧ exec (.txnRead f x found) s = .next (s.reject f x)) ∧
      (∀ w, Sparse.find s.fabric.windows x.window = some w →
        let pins := Sparse.read [] s.fabric.winPins x.window
        let va := w.base + x.offset
        (w.admits x = false → exec (.txnWrite f x) s = .next (s.reject f x) ∧ exec (.txnRead f x found) s = .next (s.reject f x)) ∧
        (w.admits x = true → w.read = true → w.carry = false → 1 ≤ x.length → x.length ≤ 4096 → x.offset + x.length ≤ w.size →
          let v := s.findErrors ((pinPieces pins va x.length).flatMap fun q => q.1.bursts q.2) found
          (v.pinBad pins va x.length = none →
            exec (.txnRead f x found) s = .next (v.respond x 0 (v.pinBytes pins va x.length))) ∧
          (v.pinBad pins va x.length ≠ none → exec (.txnRead f x found) s = .next ((v.countPoison f).respond x 3 []))) ∧
        (w.admits x = true → w.write = true → w.carry = false → x.data ≠ [] → x.data.length ≤ 4096 →
          x.offset + x.data.length ≤ w.size → s.twin.role = 1 → s.pinBad pins va x.data.length = none →
          exec (.txnWrite f x) s = .next ((s.pinWrite pins va x.data).respond x 0 [])) ∧
        (w.admits x = true → w.write = true → w.carry = true → x.offset = 0 → opLength x.data = some x.data.length →
          (∀ u, s.dispatch f (parseOp x.data) (.window x.window f) = some u →
            exec (.txnWrite f x) s = .next (u.respond x 0 [])) ∧
          (s.dispatch f (parseOp x.data) (.window x.window f) = none →
            exec (.txnWrite f x) s = .next (s.holdOp f (parseOp x.data) (.window x.window f) (some x))))) ∧
      (∀ o, s.fabric.outstanding = [o] → o.tid = x.tid → o.into = none → x.status = 0 → (∀ y ∈ s.cmds, y.d.opcode ≠ 0x12) → Runs (.txnResp x) s fun t =>
        t.fabric.outstanding = [] ∧ t.mem = s.mem ∧ t.frames = s.frames)) ∧
    (∀ o, s.fabric.outstanding = [o] → o.into = none → (∀ y ∈ s.cmds, y.d.opcode ≠ 0x12) → Runs (.fabricTimeoutExpire o.tid) s fun t =>
      t.fabric.outstanding = [] ∧ t.fabric.timeouts = inc32 s.fabric.timeouts ∧ t.mem = s.mem) ∧
    (s.fabric.idSet = true → x.dst ≠ s.fabric.moduleId → ∀ request : Bool,
      (∀ k, s.routeLink x.dst (if request then 0 else 1) = some k → exec (.txnForward f x request) s =
        .next (s.sendTxn k (if !request then 3 else if x.data = [] then 2 else 1) x)) ∧
      (s.routeLink x.dst (if request then 0 else 1) = none → Runs (.txnForward f x request) s fun t =>
        t.fabric.noRoute = inc32 s.fabric.noRoute ∧ t.mem = s.mem ∧ t.fabric.outstanding = s.fabric.outstanding))

/-! ## Power, clock, reset, firmware -/

/-- R388, R389, R390, R391, R392, R393, R396, R399, R472, R473: what the sources of a module-scope reset leave: RESET_CAUSE
marks the source and COUNT.MODULE counts it; no firing, command or twin role of before is left, memory is zero, and the queue of
commands stays. A source that stays asserted, or BOOT_HOLD, holds the boot at the end of step 3; when the last is released the
boot goes on; without 48 V, or without a clock, the module is off or waits at step 1. Choices of the model that this rests on:
logs 1, 2, 3, 53. -/
def Obligations.ResetSourcesResetModule : Prop :=
  ∀ (s : State) (boot : List BootFrame),
    let gone := fun t : State => t.firings = [] ∧ t.cmds = [] ∧ t.mem.dram = [] ∧ t.mem.scratch = [] ∧ t.pending = s.pending ∧
      t.fabric.outstanding = [] ∧ t.twin.journalEpoch = s.twin.journalEpoch
    let held := fun t : State => gone t ∧ t.seqr.phase = .step3 ∧ t.master.none = true ∧ ∀ p < 4, (t.port p).state = 0
    let booted := fun t : State => gone t ∧ t.seqr.protLocked = true ∧ (t.seqr.phase = .run ∨ t.seqr.phase = .step5)
    let free := s.seqr.resetPin = false ∧ s.seqr.thermal = false ∧ s.seqr.twinFence = false ∧ s.ka.bootHold = false
    (s.sampled = true →
      (s.seqr.resetPin = false → Runs .resetPin s fun t => held t ∧ t.seqr.resetPin = true ∧ t.ka.resetPin = true ∧
        t.ka.countModule = inc32 s.ka.countModule) ∧
      (s.seqr.thermal = false → ∀ cause, Runs (.thermalTrip cause) s fun t => held t ∧ t.seqr.thermal = true ∧
        t.ka.thermal = true ∧ t.ka.countModule = inc32 s.ka.countModule) ∧
      (s.seqr.kaUp = true → s.smbus.result ≠ 1 → free → Runs (.moduleReset 0xA5C3 boot true) s fun t => booted t ∧
        t.ka.swFull = true ∧ t.ka.countModule = inc32 s.ka.countModule) ∧
      (s.seqr.kaUp = true → s.smbus.result ≠ 1 → ∀ key : BitVec 16, key ≠ 0xA5C3 →
        exec (.moduleReset key boot true) s = .next { s with smbus := { s.smbus with result := 2 } })) ∧
    (s.seqr.phase = .step3 → s.ka.bootHold = false → s.seqr.twinFence = false →
      (s.seqr.resetPin = true → s.seqr.thermal = false → Runs (.resetPinRelease boot) s fun t =>
        t.seqr.resetPin = false ∧ t.seqr.protLocked = true ∧ (t.seqr.phase = .run ∨ t.seqr.phase = .step5)) ∧
      (s.seqr.resetPin = true → s.seqr.thermal = true → Runs (.resetPinRelease boot) s fun t =>
        t.seqr.resetPin = false ∧ t.seqr.phase = .step3) ∧
      (s.seqr.resetPin = false → s.seqr.thermal = true → Runs (.thermalTripEnd boot) s fun t =>
        t.seqr.thermal = false ∧ t.seqr.protLocked = true ∧ (t.seqr.phase = .run ∨ t.seqr.phase = .step5))) ∧
    (s.seqr.v48 = false → s.seqr.clock = true → s.seqr.kaUp = true → s.seqr.fresh = false → free →
      Runs (.powerOn boot) s fun t => booted t ∧ t.seqr.v48 = true ∧ t.ka.por = true ∧
        t.ka.countModule = inc32 s.ka.countModule) ∧
    (s.seqr.v48 = false → s.seqr.clock = false → Runs (.powerOn boot) s fun t => t.seqr.v48 = true ∧ t.seqr.phase = .step1) ∧
    (s.seqr.v48 = true → Runs .powerLoss s fun t => gone t ∧ t.seqr.phase = .off ∧ t.seqr.v48 = false ∧
      t.seqr.kaUp = (s.seqr.kaUp && (s.seqr.aux || s.seqr.supercap)) ∧ t.ka = s.ka) ∧
    (s.seqr.clock = true → s.seqr.v48 = true → s.seqr.phase ≠ .off → Runs .clkLoss s fun t => gone t ∧
      t.seqr.phase = .step1 ∧ t.seqr.clock = false ∧ t.ka.clkLoss = true ∧ t.ka.countModule = s.ka.countModule) ∧
    (s.seqr.clock = false → s.seqr.v48 = true → s.seqr.phase = .step1 → s.seqr.fresh = false → free →
      Runs (.clkReturn boot) s fun t => booted t ∧ t.seqr.clock = true) ∧
    (s.seqr.kaUp = false → Runs .auxValid s fun t => t.ka = KeepAlive.reset ∧ t.seqr.aux = true ∧ t.seqr.kaUp = true) ∧
    (s.seqr.kaUp = true → Runs .auxValid s fun t => t.ka = s.ka ∧ t.seqr.aux = true) ∧
    (s.seqr.v48 = false → Runs .keepAliveLoss s fun t => t.ka = KeepAlive.reset ∧ t.seqr.kaUp = false) ∧
    (s.seqr.v48 = true → exec .keepAliveLoss s = .next s)

/-- R391, R392, R394, R397, R404, R405, R426: a fenced frame's beads, rods, scratch, pools and engines are gone while its memory
stays, and FENCE_FRAMES and COUNT.FRAME tell of it; a kiln whose watchdog fires starts its boot ROM again and is absent until it
returns; firmware that runs from a TRIAL slot confirms it. Choices of the model that this rests on: logs 59, 60. -/
def Obligations.FramesFenceAndKilnsRestart : Prop :=
  ∀ (f acked : Nat) (boot : BootFrame) (s : State), frameOk f = true → s.up = true →
    (s.hasMaster = true → (s.frame f).fenced = false → s.master.frame ≠ f → s.framePort f = none → s.firings = [] →
      (∀ n < 4, s.holdsShadow n f = false) → (s.frame f).carry = [] → (s.frame f).actions = [] →
      s.bayFrame .a ≠ f → s.bayFrame .b ≠ f → s.activating = [] →
      (∀ y ∈ s.cmds, y.d.opcode ≠ 0x09 ∧ y.d.opcode ≠ 0x0A) → Runs (.fenceAndReset f acked boot) s fun t => inMask t.ka.fenceFrames f = true ∧ t.ka.frame = true ∧
        t.ka.countFrame = inc32 s.ka.countFrame ∧ t.mem.dram = s.mem.dram ∧ (t.frame f).gather = [] ∧ (t.frame f).tlb = [] ∧
        (t.frame f).journal.ring = (s.frame f).journal.ring ∧
        (∀ b : BeadId, b.ok = true → b.frame = f → t.bead b = Bead.reset) ∧
        (∀ b : BeadId, b.ok = true → b.frame ≠ f →
          { t.bead b with ctxs := (s.bead b).ctxs, releases := (s.bead b).releases } = s.bead b ∧
          ∀ c, { (t.bead b).ctx c with known := ((s.bead b).ctx c).known } = (s.bead b).ctx c) ∧
        (∀ b : BeadId, b.ok = true → b.frame = f → ∀ off < 16384, t.scratchBytes b off 1 = [0]) ∧
        (boot.ramp = false → (t.frame f).fenced = true)) ∧
    (s.hasMaster = false → exec (.fenceAndReset f acked boot) s = .next s) ∧
    (s.kilnActs f = true → (s.hasMaster = true → s.master.frame ≠ f) → (s.frame f).kiln.slotA.state = 1 →
      (s.frame f).kiln.preferB = false → (s.frame f).kiln.slotA.verdict s.fwRules boot.slotA = 0 → Runs (.kilnWatchdog f false acked boot) s fun t =>
        t.ka.kilnWdt = true ∧ inMask t.ka.wdtFrames f = true ∧ (t.frame f).kiln.absent = true ∧
        (t.frame f).kiln.verified = true ∧ (t.frame f).kiln.runningB = false ∧ t.firings = s.firings ∧ t.mem = s.mem) ∧
    ((s.frame f).fenced = false → (s.frame f).kiln.absent = true → s.hasMaster = true → s.master.frame ≠ f → s.activating = [] →
      Runs (.kilnReturn f) s fun t => OnlyFrame f s t ∧ (t.frame f).kiln.absent = false ∧
        (t.frame f).kiln.slotA = (s.frame f).kiln.slotA ∧ (t.frame f).kiln.shown.absent = false) ∧
    ((s.frame f).kiln.absent = false → exec (.kilnReturn f) s = .next s) ∧
    (s.kilnActs f = true →
      let k := (s.frame f).kiln
      (k.runningB = true → k.slotB.state = 2 → Runs (.fwConfirm f) s fun t => OnlyFrame f s t ∧
        (t.frame f).kiln.slotB = { k.slotB with state := 1 } ∧ (t.frame f).kiln.slotA = k.slotA) ∧
      (k.runningB = false → k.slotA.state = 2 → Runs (.fwConfirm f) s fun t => OnlyFrame f s t ∧
        (t.frame f).kiln.slotA = { k.slotA with state := 1 } ∧ (t.frame f).kiln.slotB = k.slotB) ∧
      ((k.slot k.runningB).state ≠ 2 → Runs (.fwConfirm f) s fun t => OnlyFrame f s t ∧ t.frame f = s.frame f))

/-! ## Set-up registers, SMBus, calibration -/

/-- R3, R5, R409, R411, R444, R445, R446, R447, R449: a write of another size or alignment than 8 B is counted in SETUP_ERRS; a write of a bank
register goes to its staged copy, at either address, and the bank is WRITTEN, with the live value unchanged; during a CHECK or
a COMMIT it is ignored with LATE_WRITE; a ring base is written while its ring is OFF; W1C bits clear where 1 is written; a
register outside the map ignores the write. -/
def Obligations.SetupRegistersTakeWrites : Prop :=
  ∀ (p : Nat) (w : Word64) (s : State), portOk p = true → s.portUp p = true →
    (∀ off size, off < 0x10000 → (size ≠ 8 ∨ off % 8 ≠ 0) → Runs (.registerWrite p off size w) s fun t => OnlyPort p s t ∧
      t.port p = { s.port p with setupErrs := inc32 (s.port p).setupErrs }) ∧
    (s.partExists p = true → ∀ off, off = 0x0028 ∨ off = 0x8028 →
      ((s.part p).bank.state ≠ 2 → (s.part p).bank.state ≠ 6 → Runs (.registerWrite p off 8 w) s fun t => OnlyPart p s t ∧
        (t.part p).staged = { (s.part p).staged with shadowBase := w.extractLsb' 16 36 } ∧
        (t.part p).live = (s.part p).live ∧ (t.part p).bank.state = 1) ∧
      ((s.part p).bank.state = 2 ∨ (s.part p).bank.state = 6 → Runs (.registerWrite p off 8 w) s fun t => OnlyPart p s t ∧
        (t.part p).staged = (s.part p).staged ∧ (t.part p).bank = { (s.part p).bank with lateWrite := true })) ∧
    (s.partExists p = false → exec (.registerWrite p 0x0028 8 w) s = .next s ∧ exec (.registerWrite p 0x0588 8 w) s = .next s) ∧
    (∀ q < 64, Runs (.registerWrite p (0x1000 + 64 * q) 8 w) s fun t => OnlyRing p q s t ∧
      t.ring p q = if (s.ring p q).state = 0 then { s.ring p q with descBase := w.extractLsb' 12 52 } else s.ring p q) ∧
    (s.partExists p = true → Runs (.registerWrite p 0x0478 8 w) s fun t => OnlyPart p s t ∧
      (t.part p).capStatus = (s.part p).capStatus &&& ~~~(w.setWidth 20)) ∧
    (exec (.registerWrite p 0x0000 8 w) s = .next s ∧ exec (.registerWrite p 0x7000 8 w) s = .next s)

/-- R400, R402, R405, R407, R440, R441, R465, R474, R475, R476, R477: a write command over SMBus with a wrong PEC changes
nothing but STATUS, which reads 3; while STATUS is busy a command is discarded; without a kiln master it reads 4, but for what
the keep-alive domain serves. The commands do what their rows say: registers, the module bank, resets, firmware, calibration,
the alert. Choices of the model that this rests on: logs 67, 68. -/
def Obligations.SmbusCommandsAct : Prop :=
  ∀ (s : State), s.seqr.kaUp = true →
    let done := fun r : Nat => ({ s with smbus := { s.smbus with result := r } } : State)
    (∀ i : Instr, (∃ off v, i = .regWrite off v false) ∨ (∃ off d, i = .mbLayout off d false) ∨ (∃ e, i = .mbEntry e false) ∨
        i = .mbCheck false ∨ i = .mbCommit false ∨ i = .mbDiscard false ∨
        (∃ k b, i = .moduleReset k b false) ∨ (∃ f a b, i = .frameReset f a b false) ∨ (∃ b, i = .protCommit b false) ∨
        (∃ m x, i = .fwStage m x false) ∨ (∃ m, i = .fwActivate m false) ∨ (∃ m, i = .fwPrefer m false) ∨
        (∃ d, i = .calWrite d false) ∨ i = .calCommit false →
      (s.smbus.result = 1 → exec i s = .next s) ∧ (s.smbus.result ≠ 1 → exec i s = .next (done 3))) ∧
    (exec .alertResponse s = .next { s with smbus := { s.smbus with alert := false, sources := 0 } }) ∧
    (Runs .status s fun t => { t with smbus := s.smbus } = s ∧ t.smbus.masterShown = BitVec.ofNat 64 s.master.word ∧
      t.smbus.sourcesShown = s.smbus.sources ∧ t.smbus.result = s.smbus.result) ∧
    (∀ port off, s.hasMaster = true → Runs (.regRead port off) s fun t => { t with smbus := s.smbus } = s ∧
      t.smbus.data = BitVec.ofNat 64 ((readSmbus s port off).getD 0)) ∧
    (s.smbus.result ≠ 1 → s.hasMaster = false → (∀ d, exec (.calWrite d true) s = .next (done 4)) ∧
      exec (.mbDiscard true) s = .next (done 4)) ∧
    (s.smbus.result ≠ 1 → s.hasMaster = false → ∀ (f : Nat) (mask : BitVec 20) (img : FwImage), f < 20 → inMask mask f = true →
      (s.frame f).kiln.runningB = false → Runs (.fwStage mask img true) s fun t => (t.frame f).kiln.preferB = true ∧
        (t.frame f).kiln.slotB = ⟨2, img.svn, img.ifLevel, img.version, img.form⟩ ∧
        (t.frame f).kiln.slotA = (s.frame f).kiln.slotA) ∧
    (s.smbus.result ≠ 1 → ∀ boot,
      (s.seqr.phase ≠ .step3 ∨ s.sourceHeld = true → exec (.protCommit boot true) s = .next (done 2)) ∧
      (s.seqr.phase = .step3 → s.sourceHeld = false → Runs (.protCommit boot true) s fun t =>
        t.seqr.protLocked = true ∧ (t.seqr.phase = .run ∨ t.seqr.phase = .step5))) ∧
    (s.smbus.result ≠ 1 → s.hasMaster = true →
      (∀ w : Word64, s.mb.writable = true → Runs (.regWrite 0x60B0 w true) s fun t =>
        t.mbStaged.stageMib = bits w.toNat 15 0 ∧ t.mbLive = s.mbLive ∧ t.mb.state = 1 ∧ t.smbus.result = 0) ∧
      (∀ w : Word64, exec (.regWrite 0x0000 w true) s = .next (done 2)) ∧
      (∀ off data, data.length ≤ 252 → off + data.length ≤ 0xCA0 → s.mb.writable = true →
        Runs (.mbLayout off data true) s fun t => t.mb.state = 1 ∧ t.smbus.result = 0 ∧ t.parts = s.parts ∧
          ∀ i (h : i < data.length), (Sparse.find t.mbStaged.layout (off + i)).getD (s.layoutByte (off + i)) = data[i]) ∧
      (∀ off data, 252 < data.length ∨ 0xCA0 < off + data.length → exec (.mbLayout off data true) s = .next (done 2)) ∧
      (∀ e, e.length = 80 → s.mb.writable = true → Runs (.mbEntry e true) s fun t =>
        t.mbEntries = s.mbEntries ++ [gwEntry e] ∧ t.mb.state = 1 ∧ t.mb.entry = s.mbEntries.length + 1) ∧
      (s.master.moving = true ∨ s.masterBusy = true → ∀ b, exec (if b then .mbCommit true else .mbCheck true) s =
        .next { s with smbus := { s.smbus with result := 1, waiting := some b } }) ∧
      (s.master.moving = false → s.masterBusy = false → s.mb.writable = true →
        (s.checkModule = none → Runs (.mbCheck true) s fun t => t.mb.state = 3 ∧ t.smbus.result = 0 ∧ t.parts = s.parts) ∧
        (∀ r, s.checkModule = some r → Runs (.mbCheck true) s fun t =>
          t.mb.state = 4 ∧ t.mb.reason = r.1 ∧ t.mb.entry = r.2 ∧ t.smbus.result = 0)) ∧
      (s.master.moving = false → s.masterBusy = false → s.mb.state ≠ 3 → exec (.mbCommit true) s = .next (done 2)) ∧
      (s.master.moving = false → s.masterBusy = false → s.mb.state = 3 → Runs (.mbCommit true) s fun t => t.mb.state = 6 ∧ t.smbus.result = 1 ∧
        t.mbLive = s.mbLive ∧ ∀ f < 20, (s.frame f).fenced = false → FrameAction.commit 4 ∈ (t.frame f).actions) ∧
      (s.mb.writable = true → Runs (.mbDiscard true) s fun t => t.mb.state = 0 ∧ t.mbEntries = [] ∧
        t.mbStaged = { s.mbLive with layout := [] } ∧ t.mb.lateWrite = s.mb.lateWrite) ∧
      (∀ f acked boot, 20 ≤ f → exec (.frameReset f acked boot true) s = .next (done 2)) ∧
      (∀ f acked boot, f < 20 → exec (.frameReset f acked boot true) s = .next ((done 0).fenceAndReset f acked boot)) ∧
      (∀ (f : Nat) (mask : BitVec 20) (img : FwImage), f < 20 → inMask mask f = true → (s.frame f).kiln.runningB = false →
        let x : FwSlot := ⟨1, img.svn, img.ifLevel, img.version, img.form⟩
        Runs (.fwStage mask img true) s fun t =>
          (t.frame f).kiln.slotB = (if x.verdict s.fwRules img.check = 0 then x else { x with state := 3 }) ∧
          (t.frame f).kiln.preferB = false ∧ (t.frame f).kiln.slotA = (s.frame f).kiln.slotA ∧ t.smbus.alert = true) ∧
      (∀ (f : Nat) (mask : BitVec 20), f < 20 → inMask mask f = true →
        Runs (.fwPrefer mask true) s fun t => (t.frame f).kiln.preferB = !(s.frame f).kiln.runningB ∧
          (t.frame f).kiln.runningB = (s.frame f).kiln.runningB) ∧
      (∀ (f : Nat) (mask : BitVec 20), f < 20 → inMask mask f = true → s.activateErr f ≠ 0 → Runs (.fwActivate mask true) s fun t =>
        t.smbus.result = 2 ∧ (t.frame f).kiln.shown.lastErr = s.activateErr f ∧ (t.frame f).kiln.absent = (s.frame f).kiln.absent) ∧
      (∀ mask : BitVec 20, (∀ k < 20, inMask mask k = true → s.activateErr k = 0) →
        let others := (maskFrames mask).filter fun k => decide (k ≠ s.master.frame)
        let last := (maskFrames mask).filter fun k => decide (k = s.master.frame)
        (mask = 0 → Runs (.fwActivate mask true) s fun t => t.smbus.result = 0 ∧ t.activating = [] ∧ t.frames = s.frames) ∧
        (∀ f rest, others = f :: rest → (s.frame f).fenced = false → Runs (.fwActivate mask true) s fun t =>
          t.smbus.result = 1 ∧ t.activating = f :: rest ++ last ∧ (t.frame f).kiln.absent = true ∧
          (t.frame f).kiln.preferB = !(s.frame f).kiln.runningB ∧ t.mem = s.mem ∧ t.firings = s.firings ∧
          ∀ k, k ≠ f → t.frame k = s.frame k) ∧
        (∀ k, others = [] → last = [s.master.frame] → (s.frame s.master.frame).fenced = false → s.master.moving = false →
          s.successorOf ((s.framePort s.master.frame).getD 0) = some k → Runs (.fwActivate mask true) s fun t =>
            t.smbus.result = 1 ∧ t.activating = [s.master.frame] ∧ t.master.moving = true ∧ t.master.successor = some k ∧
            t.mem = s.mem ∧ t.firings = s.firings)) ∧
      (∀ data, s.smbus.calStaged.length < calBytes → Runs (.calWrite data true) s fun t =>
        t.smbus.calStaged = s.smbus.calStaged ++ data ∧ t.smbus.result = 0 ∧ t.frames = s.frames) ∧
      (calOk s.smbus.calStaged s.calGeneration = false → Runs (.calCommit true) s fun t => t.smbus.result = 2 ∧
        t.frames = s.frames ∧ t.calGeneration = s.calGeneration) ∧
      (calOk s.smbus.calStaged s.calGeneration = true → Runs (.calCommit true) s fun t => t.smbus.result = 0 ∧
        t.calGeneration = s.calGeneration + 1 ∧ t.calReplaced = true ∧ ∀ f < 20,
          (t.frame f).cone.nextRate = some (calRates (calRecord s.smbus.calStaged f)) ∧
          (t.frame f).cone.tableRate = (s.frame f).cone.tableRate ∧ FrameAction.calibration ∈ (t.frame f).actions))

/-! ## Saggars -/

/-- R104, R431, R432, R434, R435, R436, R437: a cartridge inserted in an empty bay rebuilds if its signatures, its answer and
its volume header are good, and is REFUSED with the reason otherwise; ADOPT takes a FOREIGN one; EJECT drains a bay unless the
other is not ONLINE, when it needs FORCE; a drained bay is REMOVABLE; a bay whose rebuild is done holds what came from the
twin's copy (operands of the command: the model's choice, log 56), is ONLINE, and takes records; one that is removed is ABSENT,
and the records that it had not acknowledged are sent again. Choices of the model that this rests on: log 56. -/
def Obligations.SaggarBaysChangeState : Prop :=
  ∀ (k : Bay) (s : State), s.up = true →
    let b := s.bay k
    (s.kilnActs (s.bayFrame k) = true → b.state = 0 → ∀ c : Cartridge,
      let v := s.judgeCart c
      Runs (.saggarInsert k c) s fun t => (t.bay k).cart = some c ∧ (t.bay k).serial = c.serial ∧
        (v.1 ≠ 3 → (t.bay k).state = v.1 ∧ (t.bay k).reason = v.2) ∧
        (v.1 = 3 → (t.bay k).life < ratedLife → (t.bay k).state = 3) ∧
        (v = if !c.certGood then (2, 2) else if !c.answers then (2, 4) else if !c.signGood then (2, 1)
          else if c.header.map (fun h => h.1) = some s.fabric.moduleId then (3, 0) else (2, 3))) ∧
    (s.seqr.kaUp = true → s.smbus.result ≠ 1 → s.hasMaster = true →
      (∀ force, (s.bay k.other).state = 4 ∨ force = true → 2 ≤ b.state → b.state ≤ 5 → Runs (.eject k force) s fun t =>
        (t.bay k).state = 6 ∧ (t.bay k).held = b.held ∧ t.smbus.result = 0) ∧
      ((s.bay k.other).state ≠ 4 → Runs (.eject k false) s fun t => t.bayRefused = true ∧ t.bay k = b) ∧
      (b.state ≠ 2 ∨ b.reason ≠ 3 → exec (.adopt k) s = .next { s with smbus := { s.smbus with result := 0 } }) ∧
      (∀ c, b.state = 2 → b.reason = 3 → b.cart = some c → b.written < ratedLife → c.written < ratedLife →
        Runs (.adopt k) s fun t => (t.bay k).state = 3 ∧
          (t.bay k).cart = some { c with header := some (s.fabric.moduleId, s.twin.epoch) })) ∧
    (b.state = 6 → b.sent = [] → Runs (.saggarDrainDone k) s fun t => (t.bay k).state = 7 ∧ (t.bay k).held = b.held) ∧
    (b.state = 6 → b.sent ≠ [] → exec (.saggarDrainDone k) s = .next s) ∧
    (b.state = 3 → ∀ copies, Runs (.saggarRebuildDone k copies) s fun t => (t.bay k).lacks = [] ∧
      ((t.bay k).state = 4 ∨ (t.bay k).state = 5) ∧
      (s.twinReads k = false ∨ copies = [] → (t.bay k).state = 4 ∧ (t.bay k).takes = true ∧ (t.bay k).held = b.held) ∧
      (s.twinReads k = true → ∀ e i, copies = [.extent e i] → Sparse.find (t.bay k).rows e = some i) ∧
      (s.twinReads k = true → ∀ r, copies = [.journal r] → r ∈ (t.bay k).held)) ∧
    (b.state ≠ 0 → b.sent = [] → Runs (.saggarRemove k) s fun t => (t.bay k).state = 0 ∧ (t.bay k).cart = none ∧
      (t.bay k).held = b.held ∧ (t.bay k).written = b.written)

/-! ## The whole machine -/

/-- A step runs the command at the front of the queue on the state with the queue's rest, which is the queue of the next state;
on an empty queue nothing happens (the model's choice, log 6). -/
def Obligations.StepRunsFront : Prop :=
  (∀ (c : Instr) (s : State) (rest : List Instr), s.pending = c :: rest → step s = exec c { s with pending := rest }) ∧
  (∀ s : State, s.pending = [] → step s = .next s) ∧
  ∀ (nbits w : Nat) (s : State), decodeTableWord nbits w = none ∧ s.withFetchWord nbits w = s

/-- A command that names a unit which the module does not have is the only one that faults (the model's choice, log 16); every
other command of every row answers a next state, in every state. -/
def Obligations.CommandsFaultOnlyAtMissingUnits : Prop :=
  ∀ (i : Instr) (s : State), (i.wellFormed = false → exec i s = .fault .noSuchUnit) ∧ (i.wellFormed = true → ∃ t, exec i s = .next t)

/-- Every step keeps the memories in canonical form, and takes exactly the front command off the queue. That memory keeps its form
is the model's invariant; log 6 has the queue. -/
def Obligations.StepsKeepMemory : Prop :=
  ∀ s t : State, s.memOk = true → step s = .next t → t.memOk = true ∧ t.pending = s.pending.tail

/-- R289, R344, R366, R416, R430, R438, R451, R454, R463 (Reset columns): what holds right after reset. The
registers without a Reset column hold the values of logs 1, 2 and 3. -/
def Obligations.ResetState : Prop :=
  let s := State.reset
  s.memOk = true ∧ s.pending = [] ∧ s.cmds = [] ∧ s.firings = [] ∧ s.up = true ∧ s.hasMaster = true ∧
    (∀ p q, ringOk p q = true → (s.ring p q).state = 0 ∧ (s.ring p q).enable = false ∧ (s.ring p q).log2 = 6) ∧
    (∀ p, portOk p = true → (s.port p).state = 1 ∧ (s.port p).epoch = 0 ∧ (s.port p).winBase = 0 ∧ (s.port p).setupErrs = 0) ∧
    (∀ f, frameOk f = true → (s.frame f).fenced = false ∧ (s.frame f).cone.cap = 95 ∧ (s.frame f).cone.speed = 1000 ∧
      (s.frame f).cone.target = 700 ∧ (s.frame f).cone.mv = 480 ∧ (s.frame f).cone.excess = 0) ∧
    (∀ n, n < 4 → (s.part n).live = BankRegs.reset ∧ (s.part n).bank.state = 0 ∧ (s.part n).rangeTrips = 0 ∧
      (s.part n).faults.entries = [] ∧ ∀ k, Sparse.read 0#32 (s.part n).fences k = 0) ∧
    s.mbLive.sweepSeconds = 900 ∧ s.mbLive.stageMib = 2048 ∧ s.mbLive.ckptGib = 8 ∧ s.mbLive.scrubHours = 24 ∧
    s.ka.por = true ∧ s.ka.countModule = 0 ∧ (s.bay .a).state = 0 ∧ (s.bay .b).state = 0

/-- R350: the partitions after power-on reset: four of five frames each, SHARE 64, READ_FROM 0; coil, matrix, vector and mover
capacity whole on the own frames; a quarter of gather, carry, host DMA, link and migration capacity on each frame; no scrub,
and a module bank with another ALLOC_n_f_9 fails CHECK. -/
def Obligations.PowerOnPartitions : Prop :=
  (∀ (s : State) (boot : List BootFrame), s.seqr.v48 = false → s.seqr.clock = true → Runs (.powerOn boot) s fun t =>
    ∀ n, n < 4 → let p := t.part n
      p.share = 64 ∧ p.readFrom = 0 ∧ ∀ f, f < 20 → inMask p.frames f = decide (f / 5 = n) ∧
        (∀ a, 2 ≤ a → a ≤ 5 → p.allocOf f a = if f / 5 = n then capacity a else 0) ∧
        (∀ a, a ∈ [0, 1, 6, 7, 8] → p.allocOf f a = capacity a / 4) ∧ p.allocOf f 9 = 0) ∧
  ∀ (s : State) (n f : Nat), n < 4 → f < 20 → layoutAlloc s.stagedLayout n f 9 ≠ 0 → s.checkModule ≠ none

/-- R389: a source asserted while the reference clock is stopped changes nothing but the pin; when the clock returns the sequencer
samples it, and the reset acts if it is still asserted; a module that gets power without a clock stays at boot step 1. -/
def Obligations.StoppedClockHoldsSources : Prop :=
  ∀ (s : State) (boot : List BootFrame) (tw4 : Bool), s.seqr.clock = false →
    (s.seqr.resetPin = false → exec .resetPin s = .next { s with seqr := { s.seqr with resetPin := true } }) ∧
    (s.seqr.thermal = false → ∀ cause, exec (.thermalTrip cause) s = .next { s with seqr := { s.seqr with thermal := true, tripped := true } }) ∧
    (s.seqr.twinFence = false → exec (.twinFenceIn tw4) s =
      .next { s with seqr := { s.seqr with fenceIn := setBit s.seqr.fenceIn (bit tw4) true } }) ∧
    (s.seqr.phase ≠ .step3 →
      (s.seqr.resetPin = true → exec (.resetPinRelease boot) s = .next { s with seqr := { s.seqr with resetPin := false } }) ∧
      (s.seqr.thermal = true → exec (.thermalTripEnd boot) s = .next { s with seqr := { s.seqr with thermal := false } }) ∧
      (s.seqr.twinFence = true → exec (.twinFenceRelease boot tw4) s =
        .next { s with seqr := { s.seqr with fenceIn := setBit s.seqr.fenceIn (bit tw4) false } })) ∧
    (s.seqr.v48 = true → s.seqr.phase = .step1 → Runs (.clkReturn boot) s fun t =>
      t.ka.resetPin = (s.ka.resetPin || s.seqr.resetPin) ∧ t.ka.thermal = (s.ka.thermal || s.seqr.thermal) ∧
      t.ka.twinFence = (s.ka.twinFence || s.seqr.twinFence) ∧
      (s.sourceHeld = true → t.seqr.phase = .step3) ∧
      (s.sourceHeld = false → s.ka.bootHold = false → t.seqr.phase = .run ∨ t.seqr.phase = .step5)) ∧
    (s.seqr.v48 = false → Runs (.powerOn boot) s fun t => t.seqr.v48 = true ∧ t.seqr.clock = false ∧ t.seqr.phase = .step1) ∧
    (s.seqr.v48 = true → s.seqr.phase = .step1 → ∀ key,
      Runs (.moduleReset key boot true) s (fun t => t.seqr = s.seqr) ∧ Runs (.protCommit boot true) s (fun t => t.seqr = s.seqr) ∧
      Runs .auxValid s (fun t => t.seqr.phase = .step1) ∧ Runs (.powerOn boot) s fun t => t = s)

/-- R177: every glaze value is exact in FP32, and rises strictly with the code; the values of the codes are the formula's, and the
table's. -/
def Obligations.GlazeValuesRiseExactly : Prop :=
  (∀ c d, c < d → d < 256 → (glazeVal c).lt (glazeVal d) = true) ∧
  (∀ c, c < 256 → (fp32F.decode (convertFp fp32F (glazeVal c)).1).eq (glazeVal c) = true ∧
    (c / 8 = 0 → (glazeVal c).eq (.fin false c (-17)) = true) ∧
    (c / 8 ≠ 0 → (glazeVal c).eq (.fin false (8 + c % 8) ((c / 8 : Nat) - 18)) = true)) ∧
  (glazeVal 0x00).isZero = true ∧ (glazeVal 0x01).eq (.fin false 1 (-17)) = true ∧ (glazeVal 0x08).eq (.fin false 1 (-14)) = true ∧
  (glazeVal 0x3E).eq (.fin false 7 (-10)) = true ∧ (glazeVal 0x78).eq (.fin false 1 0) = true ∧
  (glazeVal 0xFF).eq (.fin false 122880 0) = true
end

