-- ==== Sys2Proof/Laws/Sparse.lean ====
section
/-! SUPPORT. Laws of the sparse stores and of byte memory: a read after a write, and that every operation keeps the canonical
form. -/

namespace Sys2Proof

namespace Sparse

variable {α : Type}

@[simp] theorem find_insert_same (m : Sparse α) (k : Nat) (v : α) : find (insert m k v) k = some v := by
  induction m with
  | nil => simp [insert, find]
  | cons p m ih =>
    obtain ⟨i, w⟩ := p
    simp only [insert]
    split
    · simp [find]
    · rename_i h
      split
      · simp [find]
      · simp [find, h, ih]

theorem find_insert_ne (m : Sparse α) {k j : Nat} (v : α) (h : k ≠ j) : find (insert m k v) j = find m j := by
  induction m with
  | nil => simp [insert, find, h]
  | cons p m ih =>
    obtain ⟨i, w⟩ := p
    simp only [insert]
    split
    · rename_i hik
      subst hik
      simp [find, h]
    · split
      · simp [find, h]
      · simp only [find, ih]

@[simp] theorem find_erase_same (m : Sparse α) (k : Nat) : find (erase m k) k = none := by
  induction m with
  | nil => rfl
  | cons p m ih =>
    obtain ⟨i, w⟩ := p
    simp only [erase]
    split
    · exact ih
    · rename_i h
      simp [find, h, ih]

theorem find_erase_ne (m : Sparse α) {k j : Nat} (h : k ≠ j) : find (erase m k) j = find m j := by
  induction m with
  | nil => rfl
  | cons p m ih =>
    obtain ⟨i, w⟩ := p
    simp only [erase]
    split
    · rename_i hik
      subst hik
      simp [find, h, ih]
    · simp only [find, ih]

variable [DecidableEq α]

/-- What was written at a key is what is read there. -/
@[simp] theorem read_write_same (d : α) (m : Sparse α) (k : Nat) (v : α) : read d (write d m k v) k = v := by
  unfold read write
  split
  · rename_i h
    simp [h]
  · simp

/-- A write leaves every other key as it reads. -/
theorem read_write_ne (d : α) (m : Sparse α) {k j : Nat} (v : α) (h : k ≠ j) :
    read d (write d m k v) j = read d m j := by
  unfold read write
  split
  · rw [find_erase_ne m h]
  · rw [find_insert_ne m v h]

omit [DecidableEq α] in
@[simp] theorem read_nil (d : α) (k : Nat) : read d [] k = d := rfl

omit [DecidableEq α] in
theorem risesFrom_mono (m : Sparse α) {a b : Nat} (h : a ≤ b) (hm : risesFrom m b = true) : risesFrom m a = true := by
  cases m with
  | nil => rfl
  | cons p m =>
    obtain ⟨i, w⟩ := p
    simp only [risesFrom, Bool.and_eq_true, decide_eq_true_eq] at hm ⊢
    exact ⟨by omega, hm.2⟩

omit [DecidableEq α] in
theorem risesFrom_filter (p : Nat × α → Bool) (m : Sparse α) (b : Nat) (hm : risesFrom m b = true) :
    risesFrom (m.filter p) b = true := by
  induction m generalizing b with
  | nil => rfl
  | cons q m ih =>
    obtain ⟨i, w⟩ := q
    simp only [risesFrom, Bool.and_eq_true, decide_eq_true_eq] at hm
    simp only [List.filter]
    split
    · simp only [risesFrom, Bool.and_eq_true, decide_eq_true_eq]
      exact ⟨hm.1, ih _ hm.2⟩
    · exact ih _ (risesFrom_mono m (by omega) hm.2)

omit [DecidableEq α] in
theorem risesFrom_erase (m : Sparse α) (k b : Nat) (hm : risesFrom m b = true) : risesFrom (erase m k) b = true := by
  induction m generalizing b with
  | nil => rfl
  | cons q m ih =>
    obtain ⟨i, w⟩ := q
    simp only [risesFrom, Bool.and_eq_true, decide_eq_true_eq] at hm
    simp only [erase]
    split
    · exact ih _ (risesFrom_mono m (by omega) hm.2)
    · simp only [risesFrom, Bool.and_eq_true, decide_eq_true_eq]
      exact ⟨hm.1, ih _ hm.2⟩

omit [DecidableEq α] in
theorem risesFrom_insert (m : Sparse α) (k : Nat) (v : α) (b : Nat) (hb : b ≤ k) (hm : risesFrom m b = true) :
    risesFrom (insert m k v) b = true := by
  induction m generalizing b with
  | nil => simp [insert, risesFrom, hb]
  | cons q m ih =>
    obtain ⟨i, w⟩ := q
    simp only [risesFrom, Bool.and_eq_true, decide_eq_true_eq] at hm
    simp only [insert]
    split
    · rename_i h
      subst h
      simp [risesFrom, hb, hm.2]
    · split
      · simp only [risesFrom, Bool.and_eq_true, decide_eq_true_eq]
        exact ⟨hb, by omega, hm.2⟩
      · simp only [risesFrom, Bool.and_eq_true, decide_eq_true_eq]
        exact ⟨hm.1, ih _ (by omega) hm.2⟩

omit [DecidableEq α] in
theorem mem_erase (m : Sparse α) (k : Nat) (p : Nat × α) (h : p ∈ erase m k) : p ∈ m := by
  induction m with
  | nil => exact h
  | cons q m ih =>
    obtain ⟨i, w⟩ := q
    simp only [erase] at h
    split at h
    · exact List.mem_cons_of_mem _ (ih h)
    · rcases List.mem_cons.mp h with h | h
      · exact h ▸ List.mem_cons_self
      · exact List.mem_cons_of_mem _ (ih h)

omit [DecidableEq α] in
theorem mem_insert (m : Sparse α) (k : Nat) (v : α) (p : Nat × α) (h : p ∈ insert m k v) : p = (k, v) ∨ p ∈ m := by
  induction m with
  | nil => simpa [insert] using h
  | cons q m ih =>
    obtain ⟨i, w⟩ := q
    simp only [insert] at h
    split at h
    · rcases List.mem_cons.mp h with h | h
      · exact .inl h
      · exact .inr (List.mem_cons_of_mem _ h)
    · split at h
      · rcases List.mem_cons.mp h with h | h
        · exact .inl h
        · exact .inr h
      · rcases List.mem_cons.mp h with h | h
        · exact .inr (h ▸ List.mem_cons_self)
        · rcases ih h with h | h
          · exact .inl h
          · exact .inr (List.mem_cons_of_mem _ h)

theorem wf_filter (d : α) (m : Sparse α) (p : Nat × α → Bool) (h : wf d m = true) : wf d (m.filter p) = true := by
  simp only [wf, Bool.and_eq_true, List.all_eq_true] at h ⊢
  exact ⟨risesFrom_filter p m 0 h.1, fun q hq => h.2 q (List.mem_filter.mp hq).1⟩

/-- A write keeps the canonical form. -/
theorem wf_write (d : α) (m : Sparse α) (k : Nat) (v : α) (h : wf d m = true) : wf d (write d m k v) = true := by
  simp only [wf, Bool.and_eq_true, List.all_eq_true] at h
  unfold write
  split
  · simp only [wf, Bool.and_eq_true, List.all_eq_true]
    exact ⟨risesFrom_erase m k 0 h.1, fun q hq => h.2 q (mem_erase m k q hq)⟩
  · rename_i hv
    simp only [wf, Bool.and_eq_true, List.all_eq_true]
    refine ⟨risesFrom_insert m k v 0 (Nat.zero_le k) h.1, fun q hq => ?_⟩
    rcases mem_insert m k v q hq with hq | hq
    · simp [hq, hv]
    · exact h.2 q hq

end Sparse

namespace Mem

@[simp] theorem get_set_same (m : Mem) (a : Nat) (b : Byte) : (m.set a b).get a = b :=
  Sparse.read_write_same 0#8 m a b

theorem get_set_ne (m : Mem) {a c : Nat} (b : Byte) (h : a ≠ c) : (m.set a b).get c = m.get c :=
  Sparse.read_write_ne 0#8 m b h

/-- Bytes outside the range written read as before. -/
theorem get_setBytes_outside (m : Mem) (a : Nat) (bs : List Byte) (c : Nat) (h : c < a ∨ a + bs.length ≤ c) :
    (m.setBytes a bs).get c = m.get c := by
  induction bs generalizing m a with
  | nil => rfl
  | cons b bs ih =>
    simp only [List.length_cons] at h
    rw [setBytes, ih _ _ (by omega), get_set_ne m b (by omega)]

/-- Bytes inside the range written read what was written. -/
theorem get_setBytes_inside (m : Mem) (a : Nat) (bs : List Byte) (i : Nat) (h : i < bs.length) :
    (m.setBytes a bs).get (a + i) = bs[i] := by
  induction bs generalizing m a i with
  | nil => exact absurd h (Nat.not_lt_zero i)
  | cons b bs ih =>
    cases i with
    | zero => rw [setBytes, get_setBytes_outside _ _ _ _ (by omega)]; simp
    | succ i =>
      rw [setBytes, show a + (i + 1) = a + 1 + i by omega, ih _ _ _ (by simpa using h)]
      simp

theorem find_filter_keys (m : Mem) (q : Nat → Bool) (c : Nat) :
    Sparse.find (m.filter fun p => q p.1) c = if q c then Sparse.find m c else none := by
  induction m with
  | nil => simp [Sparse.find]
  | cons p m ih =>
    obtain ⟨i, w⟩ := p
    by_cases hq : q i <;> by_cases hc : i = c
    · subst hc; simp [hq, Sparse.find]
    · simp [hq, Sparse.find, hc, ih]
    · subst hc; simp [hq, ih]
    · simp [hq, Sparse.find, hc, ih]

/-- A byte of a range set to 0 reads 0; every other reads as before. -/
theorem get_zero (m : Mem) (a n c : Nat) : (m.zero a n).get c = if c < a ∨ a + n ≤ c then m.get c else 0 := by
  unfold zero get Sparse.read
  rw [find_filter_keys m (fun i => i < a || a + n ≤ i) c]
  by_cases h : c < a ∨ a + n ≤ c <;> simp [h]

theorem wf_set (m : Mem) (a : Nat) (b : Byte) (h : m.wf = true) : (m.set a b).wf = true :=
  Sparse.wf_write 0#8 m a b h

theorem wf_setBytes (m : Mem) (a : Nat) (bs : List Byte) (h : m.wf = true) : (m.setBytes a bs).wf = true := by
  induction bs generalizing m a with
  | nil => exact h
  | cons b bs ih => exact ih _ _ (wf_set m a b h)

theorem wf_zero (m : Mem) (a n : Nat) (h : m.wf = true) : (m.zero a n).wf = true :=
  Sparse.wf_filter 0#8 m _ h

theorem wf_filter (m : Mem) (p : Nat × BitVec 8 → Bool) (h : m.wf = true) : Mem.wf (m.filter p) = true :=
  Sparse.wf_filter 0#8 m p h

end Mem

end Sys2Proof
end

