-- ==== Sys2Proof/Laws/State.lean ====
section
/-! SUPPORT. What each update of the state leaves alone, field by field, and what each read gives after an update. -/

namespace Sys2Proof.Machine

namespace State

variable (s : State)

/-! ## Every change of a unit is a replacement of it -/

@[simp] theorem modFrame_eq (f : Nat) (g : Frame → Frame) : s.modFrame f g = s.setFrame f (g (s.frame f)) := rfl
@[simp] theorem modBead_eq (b : BeadId) (g : Bead → Bead) : s.modBead b g = s.setBead b (g (s.bead b)) := rfl
@[simp] theorem modPort_eq (p : Nat) (g : Port → Port) : s.modPort p g = s.setPort p (g (s.port p)) := rfl
@[simp] theorem modPart_eq (n : Nat) (g : Part → Part) : s.modPart n g = s.setPart n (g (s.part n)) := rfl
@[simp] theorem modRing_eq (p r : Nat) (g : Ring → Ring) :
    s.modRing p r g = s.setPort p ((s.port p).setRing r (g ((s.port p).ring r))) := rfl
@[simp] theorem modTally_eq (f : Nat) (g : TallyCtr → TallyCtr) :
    s.modTally f g = s.setFrame f { s.frame f with tally := g (s.frame f).tally } := rfl
@[simp] theorem modCounters_eq (f : Nat) (g : Counters → Counters) :
    s.modCounters f g = s.setFrame f { s.frame f with counters := g (s.frame f).counters } := rfl
@[simp] theorem setChan_eq (r : RodId) (c : Nat) (x : MvChannel) :
    s.setChan r c x = s.setRod r { s.rod r with chans := Sparse.write MvChannel.reset (s.rod r).chans c x } := rfl
@[simp] theorem msix_eq (p v : Nat) : s.msix p v = s.setPort p { s.port p with msix := (s.port p).msix ++ [v] } := rfl
@[simp] theorem vector1_eq (p : Nat) :
    s.vector1 p = (s.setPort p { s.port p with msix := (s.port p).msix ++ [1] }).alert 0 := rfl

/-! ## Reads of units after a replacement -/

@[simp] theorem frame_setFrame_same (f : Nat) (x : Frame) : (s.setFrame f x).frame f = x := by simp [frame, setFrame]
theorem frame_setFrame_ne {f j : Nat} (x : Frame) (h : f ≠ j) : (s.setFrame f x).frame j = s.frame j := by
  simp [frame, setFrame, Sparse.read_write_ne _ _ _ h]
@[simp] theorem port_setPort_same (p : Nat) (x : Port) : (s.setPort p x).port p = x := by simp [port, setPort]
theorem port_setPort_ne {p j : Nat} (x : Port) (h : p ≠ j) : (s.setPort p x).port j = s.port j := by
  simp [port, setPort, Sparse.read_write_ne _ _ _ h]
@[simp] theorem part_setPart_same (n : Nat) (x : Part) : (s.setPart n x).part n = x := by simp [part, setPart]
theorem part_setPart_ne {n j : Nat} (x : Part) (h : n ≠ j) : (s.setPart n x).part j = s.part j := by
  simp [part, setPart, Sparse.read_write_ne _ _ _ h]
@[simp] theorem bead_setBead_same (b : BeadId) (x : Bead) : (s.setBead b x).bead b = x := by simp [bead, setBead]
theorem bead_setBead_ne {b c : BeadId} (x : Bead) (h : b.key ≠ c.key) : (s.setBead b x).bead c = s.bead c := by
  simp [bead, setBead, Sparse.read_write_ne _ _ _ h]
@[simp] theorem rod_setRod_same (r : RodId) (x : Rod) : (s.setRod r x).rod r = x := by simp [rod, setRod]
theorem rod_setRod_ne {r c : RodId} (x : Rod) (h : r.key ≠ c.key) : (s.setRod r x).rod c = s.rod c := by
  simp [rod, setRod, Sparse.read_write_ne _ _ _ h]
@[simp] theorem ring_setRing_same (p : Port) (r : Nat) (x : Ring) : (p.setRing r x).ring r = x := by
  simp [Port.ring, Port.setRing]
theorem ring_setRing_ne (p : Port) {r j : Nat} (x : Ring) (h : r ≠ j) : (p.setRing r x).ring j = p.ring j := by
  simp [Port.ring, Port.setRing, Sparse.read_write_ne _ _ _ h]

/-! ## Tests, options and lists -/

@[simp] theorem when_true (g : State → State) : s.when true g = g s := rfl
@[simp] theorem when_false (g : State → State) : s.when false g = s := rfl
@[simp] theorem withSome_some {α : Type} (a : α) (g : State → α → State) : s.withSome (some a) g = g s a := rfl
@[simp] theorem withSome_none {α : Type} (g : State → α → State) : s.withSome none g = s := rfl
@[simp] theorem forEach_nil {α : Type} (g : State → α → State) : s.forEach [] g = s := rfl
@[simp] theorem forEach_cons {α : Type} (a : α) (l : List α) (g : State → α → State) :
    s.forEach (a :: l) g = (g s a).forEach l g := rfl

/-- What every pass keeps, the whole walk keeps. -/
theorem forEach_keeps {α : Type} (P : State → Prop) (l : List α) (g : State → α → State)
    (h : ∀ t a, P t → P (g t a)) (hs : P s) : P (s.forEach l g) := by
  induction l generalizing s with
  | nil => exact hs
  | cons a l ih => exact ih _ (h s a hs)

/-! ## setFrame -/

@[simp] theorem setFrame_pending (f : Nat) (x : Frame) : (s.setFrame f x).pending = s.pending := rfl
@[simp] theorem setFrame_mem (f : Nat) (x : Frame) : (s.setFrame f x).mem = s.mem := rfl
@[simp] theorem setFrame_beads (f : Nat) (x : Frame) : (s.setFrame f x).beads = s.beads := rfl
@[simp] theorem setFrame_rods (f : Nat) (x : Frame) : (s.setFrame f x).rods = s.rods := rfl
@[simp] theorem setFrame_ports (f : Nat) (x : Frame) : (s.setFrame f x).ports = s.ports := rfl
@[simp] theorem setFrame_parts (f : Nat) (x : Frame) : (s.setFrame f x).parts = s.parts := rfl
@[simp] theorem setFrame_firings (f : Nat) (x : Frame) : (s.setFrame f x).firings = s.firings := rfl
@[simp] theorem setFrame_nextHandle (f : Nat) (x : Frame) : (s.setFrame f x).nextHandle = s.nextHandle := rfl
@[simp] theorem setFrame_cmds (f : Nat) (x : Frame) : (s.setFrame f x).cmds = s.cmds := rfl
@[simp] theorem setFrame_nextCmd (f : Nat) (x : Frame) : (s.setFrame f x).nextCmd = s.nextCmd := rfl
@[simp] theorem setFrame_master (f : Nat) (x : Frame) : (s.setFrame f x).master = s.master := rfl
@[simp] theorem setFrame_ka (f : Nat) (x : Frame) : (s.setFrame f x).ka = s.ka := rfl
@[simp] theorem setFrame_seqr (f : Nat) (x : Frame) : (s.setFrame f x).seqr = s.seqr := rfl
@[simp] theorem setFrame_twin (f : Nat) (x : Frame) : (s.setFrame f x).twin = s.twin := rfl
@[simp] theorem setFrame_bayA (f : Nat) (x : Frame) : (s.setFrame f x).bayA = s.bayA := rfl
@[simp] theorem setFrame_bayB (f : Nat) (x : Frame) : (s.setFrame f x).bayB = s.bayB := rfl
@[simp] theorem setFrame_bayRefused (f : Nat) (x : Frame) : (s.setFrame f x).bayRefused = s.bayRefused := rfl
@[simp] theorem setFrame_lives (f : Nat) (x : Frame) : (s.setFrame f x).lives = s.lives := rfl
@[simp] theorem setFrame_gapFrames (f : Nat) (x : Frame) : (s.setFrame f x).gapFrames = s.gapFrames := rfl
@[simp] theorem setFrame_ckptLate (f : Nat) (x : Frame) : (s.setFrame f x).ckptLate = s.ckptLate := rfl
@[simp] theorem setFrame_tierfUnreadable (f : Nat) (x : Frame) : (s.setFrame f x).tierfUnreadable = s.tierfUnreadable := rfl
@[simp] theorem setFrame_fabric (f : Nat) (x : Frame) : (s.setFrame f x).fabric = s.fabric := rfl
@[simp] theorem setFrame_mb (f : Nat) (x : Frame) : (s.setFrame f x).mb = s.mb := rfl
@[simp] theorem setFrame_mbLive (f : Nat) (x : Frame) : (s.setFrame f x).mbLive = s.mbLive := rfl
@[simp] theorem setFrame_mbStaged (f : Nat) (x : Frame) : (s.setFrame f x).mbStaged = s.mbStaged := rfl
@[simp] theorem setFrame_mbEntries (f : Nat) (x : Frame) : (s.setFrame f x).mbEntries = s.mbEntries := rfl
@[simp] theorem setFrame_calReplaced (f : Nat) (x : Frame) : (s.setFrame f x).calReplaced = s.calReplaced := rfl
@[simp] theorem setFrame_calSet (f : Nat) (x : Frame) : (s.setFrame f x).calSet = s.calSet := rfl
@[simp] theorem setFrame_calCorrupt (f : Nat) (x : Frame) : (s.setFrame f x).calCorrupt = s.calCorrupt := rfl
@[simp] theorem setFrame_calGeneration (f : Nat) (x : Frame) : (s.setFrame f x).calGeneration = s.calGeneration := rfl
@[simp] theorem setFrame_activating (f : Nat) (x : Frame) : (s.setFrame f x).activating = s.activating := rfl
@[simp] theorem setFrame_smbus (f : Nat) (x : Frame) : (s.setFrame f x).smbus = s.smbus := rfl
@[simp] theorem setFrame_lastGen (f : Nat) (x : Frame) : (s.setFrame f x).lastGen = s.lastGen := rfl
@[simp] theorem setFrame_slotsReserved (f : Nat) (x : Frame) : (s.setFrame f x).slotsReserved = s.slotsReserved := rfl
@[simp] theorem setFrame_slotsOld (f : Nat) (x : Frame) : (s.setFrame f x).slotsOld = s.slotsOld := rfl
@[simp] theorem setFrame_restored (f : Nat) (x : Frame) : (s.setFrame f x).restored = s.restored := rfl
@[simp] theorem setFrame_heldOps (f : Nat) (x : Frame) : (s.setFrame f x).heldOps = s.heldOps := rfl
@[simp] theorem setFrame_free (f : Nat) (x : Frame) : (s.setFrame f x).free = s.free := rfl
@[simp] theorem setFrame_bead (f : Nat) (x : Frame) (j : BeadId) : (s.setFrame f x).bead j = s.bead j := rfl
@[simp] theorem setFrame_rod (f : Nat) (x : Frame) (j : RodId) : (s.setFrame f x).rod j = s.rod j := rfl
@[simp] theorem setFrame_port (f : Nat) (x : Frame) (j : Nat) : (s.setFrame f x).port j = s.port j := rfl
@[simp] theorem setFrame_part (f : Nat) (x : Frame) (j : Nat) : (s.setFrame f x).part j = s.part j := rfl

/-! ## setBead -/

@[simp] theorem setBead_pending (b : BeadId) (x : Bead) : (s.setBead b x).pending = s.pending := rfl
@[simp] theorem setBead_mem (b : BeadId) (x : Bead) : (s.setBead b x).mem = s.mem := rfl
@[simp] theorem setBead_frames (b : BeadId) (x : Bead) : (s.setBead b x).frames = s.frames := rfl
@[simp] theorem setBead_rods (b : BeadId) (x : Bead) : (s.setBead b x).rods = s.rods := rfl
@[simp] theorem setBead_ports (b : BeadId) (x : Bead) : (s.setBead b x).ports = s.ports := rfl
@[simp] theorem setBead_parts (b : BeadId) (x : Bead) : (s.setBead b x).parts = s.parts := rfl
@[simp] theorem setBead_firings (b : BeadId) (x : Bead) : (s.setBead b x).firings = s.firings := rfl
@[simp] theorem setBead_nextHandle (b : BeadId) (x : Bead) : (s.setBead b x).nextHandle = s.nextHandle := rfl
@[simp] theorem setBead_cmds (b : BeadId) (x : Bead) : (s.setBead b x).cmds = s.cmds := rfl
@[simp] theorem setBead_nextCmd (b : BeadId) (x : Bead) : (s.setBead b x).nextCmd = s.nextCmd := rfl
@[simp] theorem setBead_master (b : BeadId) (x : Bead) : (s.setBead b x).master = s.master := rfl
@[simp] theorem setBead_ka (b : BeadId) (x : Bead) : (s.setBead b x).ka = s.ka := rfl
@[simp] theorem setBead_seqr (b : BeadId) (x : Bead) : (s.setBead b x).seqr = s.seqr := rfl
@[simp] theorem setBead_twin (b : BeadId) (x : Bead) : (s.setBead b x).twin = s.twin := rfl
@[simp] theorem setBead_bayA (b : BeadId) (x : Bead) : (s.setBead b x).bayA = s.bayA := rfl
@[simp] theorem setBead_bayB (b : BeadId) (x : Bead) : (s.setBead b x).bayB = s.bayB := rfl
@[simp] theorem setBead_bayRefused (b : BeadId) (x : Bead) : (s.setBead b x).bayRefused = s.bayRefused := rfl
@[simp] theorem setBead_lives (b : BeadId) (x : Bead) : (s.setBead b x).lives = s.lives := rfl
@[simp] theorem setBead_gapFrames (b : BeadId) (x : Bead) : (s.setBead b x).gapFrames = s.gapFrames := rfl
@[simp] theorem setBead_ckptLate (b : BeadId) (x : Bead) : (s.setBead b x).ckptLate = s.ckptLate := rfl
@[simp] theorem setBead_tierfUnreadable (b : BeadId) (x : Bead) : (s.setBead b x).tierfUnreadable = s.tierfUnreadable := rfl
@[simp] theorem setBead_fabric (b : BeadId) (x : Bead) : (s.setBead b x).fabric = s.fabric := rfl
@[simp] theorem setBead_mb (b : BeadId) (x : Bead) : (s.setBead b x).mb = s.mb := rfl
@[simp] theorem setBead_mbLive (b : BeadId) (x : Bead) : (s.setBead b x).mbLive = s.mbLive := rfl
@[simp] theorem setBead_mbStaged (b : BeadId) (x : Bead) : (s.setBead b x).mbStaged = s.mbStaged := rfl
@[simp] theorem setBead_mbEntries (b : BeadId) (x : Bead) : (s.setBead b x).mbEntries = s.mbEntries := rfl
@[simp] theorem setBead_calReplaced (b : BeadId) (x : Bead) : (s.setBead b x).calReplaced = s.calReplaced := rfl
@[simp] theorem setBead_calSet (b : BeadId) (x : Bead) : (s.setBead b x).calSet = s.calSet := rfl
@[simp] theorem setBead_calCorrupt (b : BeadId) (x : Bead) : (s.setBead b x).calCorrupt = s.calCorrupt := rfl
@[simp] theorem setBead_calGeneration (b : BeadId) (x : Bead) : (s.setBead b x).calGeneration = s.calGeneration := rfl
@[simp] theorem setBead_activating (b : BeadId) (x : Bead) : (s.setBead b x).activating = s.activating := rfl
@[simp] theorem setBead_smbus (b : BeadId) (x : Bead) : (s.setBead b x).smbus = s.smbus := rfl
@[simp] theorem setBead_lastGen (b : BeadId) (x : Bead) : (s.setBead b x).lastGen = s.lastGen := rfl
@[simp] theorem setBead_slotsReserved (b : BeadId) (x : Bead) : (s.setBead b x).slotsReserved = s.slotsReserved := rfl
@[simp] theorem setBead_slotsOld (b : BeadId) (x : Bead) : (s.setBead b x).slotsOld = s.slotsOld := rfl
@[simp] theorem setBead_restored (b : BeadId) (x : Bead) : (s.setBead b x).restored = s.restored := rfl
@[simp] theorem setBead_heldOps (b : BeadId) (x : Bead) : (s.setBead b x).heldOps = s.heldOps := rfl
@[simp] theorem setBead_free (b : BeadId) (x : Bead) : (s.setBead b x).free = s.free := rfl
@[simp] theorem setBead_frame (b : BeadId) (x : Bead) (j : Nat) : (s.setBead b x).frame j = s.frame j := rfl
@[simp] theorem setBead_rod (b : BeadId) (x : Bead) (j : RodId) : (s.setBead b x).rod j = s.rod j := rfl
@[simp] theorem setBead_port (b : BeadId) (x : Bead) (j : Nat) : (s.setBead b x).port j = s.port j := rfl
@[simp] theorem setBead_part (b : BeadId) (x : Bead) (j : Nat) : (s.setBead b x).part j = s.part j := rfl

/-! ## setRod -/

@[simp] theorem setRod_pending (r : RodId) (x : Rod) : (s.setRod r x).pending = s.pending := rfl
@[simp] theorem setRod_mem (r : RodId) (x : Rod) : (s.setRod r x).mem = s.mem := rfl
@[simp] theorem setRod_frames (r : RodId) (x : Rod) : (s.setRod r x).frames = s.frames := rfl
@[simp] theorem setRod_beads (r : RodId) (x : Rod) : (s.setRod r x).beads = s.beads := rfl
@[simp] theorem setRod_ports (r : RodId) (x : Rod) : (s.setRod r x).ports = s.ports := rfl
@[simp] theorem setRod_parts (r : RodId) (x : Rod) : (s.setRod r x).parts = s.parts := rfl
@[simp] theorem setRod_firings (r : RodId) (x : Rod) : (s.setRod r x).firings = s.firings := rfl
@[simp] theorem setRod_nextHandle (r : RodId) (x : Rod) : (s.setRod r x).nextHandle = s.nextHandle := rfl
@[simp] theorem setRod_cmds (r : RodId) (x : Rod) : (s.setRod r x).cmds = s.cmds := rfl
@[simp] theorem setRod_nextCmd (r : RodId) (x : Rod) : (s.setRod r x).nextCmd = s.nextCmd := rfl
@[simp] theorem setRod_master (r : RodId) (x : Rod) : (s.setRod r x).master = s.master := rfl
@[simp] theorem setRod_ka (r : RodId) (x : Rod) : (s.setRod r x).ka = s.ka := rfl
@[simp] theorem setRod_seqr (r : RodId) (x : Rod) : (s.setRod r x).seqr = s.seqr := rfl
@[simp] theorem setRod_twin (r : RodId) (x : Rod) : (s.setRod r x).twin = s.twin := rfl
@[simp] theorem setRod_bayA (r : RodId) (x : Rod) : (s.setRod r x).bayA = s.bayA := rfl
@[simp] theorem setRod_bayB (r : RodId) (x : Rod) : (s.setRod r x).bayB = s.bayB := rfl
@[simp] theorem setRod_bayRefused (r : RodId) (x : Rod) : (s.setRod r x).bayRefused = s.bayRefused := rfl
@[simp] theorem setRod_lives (r : RodId) (x : Rod) : (s.setRod r x).lives = s.lives := rfl
@[simp] theorem setRod_gapFrames (r : RodId) (x : Rod) : (s.setRod r x).gapFrames = s.gapFrames := rfl
@[simp] theorem setRod_ckptLate (r : RodId) (x : Rod) : (s.setRod r x).ckptLate = s.ckptLate := rfl
@[simp] theorem setRod_tierfUnreadable (r : RodId) (x : Rod) : (s.setRod r x).tierfUnreadable = s.tierfUnreadable := rfl
@[simp] theorem setRod_fabric (r : RodId) (x : Rod) : (s.setRod r x).fabric = s.fabric := rfl
@[simp] theorem setRod_mb (r : RodId) (x : Rod) : (s.setRod r x).mb = s.mb := rfl
@[simp] theorem setRod_mbLive (r : RodId) (x : Rod) : (s.setRod r x).mbLive = s.mbLive := rfl
@[simp] theorem setRod_mbStaged (r : RodId) (x : Rod) : (s.setRod r x).mbStaged = s.mbStaged := rfl
@[simp] theorem setRod_mbEntries (r : RodId) (x : Rod) : (s.setRod r x).mbEntries = s.mbEntries := rfl
@[simp] theorem setRod_calReplaced (r : RodId) (x : Rod) : (s.setRod r x).calReplaced = s.calReplaced := rfl
@[simp] theorem setRod_calSet (r : RodId) (x : Rod) : (s.setRod r x).calSet = s.calSet := rfl
@[simp] theorem setRod_calCorrupt (r : RodId) (x : Rod) : (s.setRod r x).calCorrupt = s.calCorrupt := rfl
@[simp] theorem setRod_calGeneration (r : RodId) (x : Rod) : (s.setRod r x).calGeneration = s.calGeneration := rfl
@[simp] theorem setRod_activating (r : RodId) (x : Rod) : (s.setRod r x).activating = s.activating := rfl
@[simp] theorem setRod_smbus (r : RodId) (x : Rod) : (s.setRod r x).smbus = s.smbus := rfl
@[simp] theorem setRod_lastGen (r : RodId) (x : Rod) : (s.setRod r x).lastGen = s.lastGen := rfl
@[simp] theorem setRod_slotsReserved (r : RodId) (x : Rod) : (s.setRod r x).slotsReserved = s.slotsReserved := rfl
@[simp] theorem setRod_slotsOld (r : RodId) (x : Rod) : (s.setRod r x).slotsOld = s.slotsOld := rfl
@[simp] theorem setRod_restored (r : RodId) (x : Rod) : (s.setRod r x).restored = s.restored := rfl
@[simp] theorem setRod_heldOps (r : RodId) (x : Rod) : (s.setRod r x).heldOps = s.heldOps := rfl
@[simp] theorem setRod_free (r : RodId) (x : Rod) : (s.setRod r x).free = s.free := rfl
@[simp] theorem setRod_frame (r : RodId) (x : Rod) (j : Nat) : (s.setRod r x).frame j = s.frame j := rfl
@[simp] theorem setRod_bead (r : RodId) (x : Rod) (j : BeadId) : (s.setRod r x).bead j = s.bead j := rfl
@[simp] theorem setRod_port (r : RodId) (x : Rod) (j : Nat) : (s.setRod r x).port j = s.port j := rfl
@[simp] theorem setRod_part (r : RodId) (x : Rod) (j : Nat) : (s.setRod r x).part j = s.part j := rfl

/-! ## setPort -/

@[simp] theorem setPort_pending (p : Nat) (x : Port) : (s.setPort p x).pending = s.pending := rfl
@[simp] theorem setPort_mem (p : Nat) (x : Port) : (s.setPort p x).mem = s.mem := rfl
@[simp] theorem setPort_frames (p : Nat) (x : Port) : (s.setPort p x).frames = s.frames := rfl
@[simp] theorem setPort_beads (p : Nat) (x : Port) : (s.setPort p x).beads = s.beads := rfl
@[simp] theorem setPort_rods (p : Nat) (x : Port) : (s.setPort p x).rods = s.rods := rfl
@[simp] theorem setPort_parts (p : Nat) (x : Port) : (s.setPort p x).parts = s.parts := rfl
@[simp] theorem setPort_firings (p : Nat) (x : Port) : (s.setPort p x).firings = s.firings := rfl
@[simp] theorem setPort_nextHandle (p : Nat) (x : Port) : (s.setPort p x).nextHandle = s.nextHandle := rfl
@[simp] theorem setPort_cmds (p : Nat) (x : Port) : (s.setPort p x).cmds = s.cmds := rfl
@[simp] theorem setPort_nextCmd (p : Nat) (x : Port) : (s.setPort p x).nextCmd = s.nextCmd := rfl
@[simp] theorem setPort_master (p : Nat) (x : Port) : (s.setPort p x).master = s.master := rfl
@[simp] theorem setPort_ka (p : Nat) (x : Port) : (s.setPort p x).ka = s.ka := rfl
@[simp] theorem setPort_seqr (p : Nat) (x : Port) : (s.setPort p x).seqr = s.seqr := rfl
@[simp] theorem setPort_twin (p : Nat) (x : Port) : (s.setPort p x).twin = s.twin := rfl
@[simp] theorem setPort_bayA (p : Nat) (x : Port) : (s.setPort p x).bayA = s.bayA := rfl
@[simp] theorem setPort_bayB (p : Nat) (x : Port) : (s.setPort p x).bayB = s.bayB := rfl
@[simp] theorem setPort_bayRefused (p : Nat) (x : Port) : (s.setPort p x).bayRefused = s.bayRefused := rfl
@[simp] theorem setPort_lives (p : Nat) (x : Port) : (s.setPort p x).lives = s.lives := rfl
@[simp] theorem setPort_gapFrames (p : Nat) (x : Port) : (s.setPort p x).gapFrames = s.gapFrames := rfl
@[simp] theorem setPort_ckptLate (p : Nat) (x : Port) : (s.setPort p x).ckptLate = s.ckptLate := rfl
@[simp] theorem setPort_tierfUnreadable (p : Nat) (x : Port) : (s.setPort p x).tierfUnreadable = s.tierfUnreadable := rfl
@[simp] theorem setPort_fabric (p : Nat) (x : Port) : (s.setPort p x).fabric = s.fabric := rfl
@[simp] theorem setPort_mb (p : Nat) (x : Port) : (s.setPort p x).mb = s.mb := rfl
@[simp] theorem setPort_mbLive (p : Nat) (x : Port) : (s.setPort p x).mbLive = s.mbLive := rfl
@[simp] theorem setPort_mbStaged (p : Nat) (x : Port) : (s.setPort p x).mbStaged = s.mbStaged := rfl
@[simp] theorem setPort_mbEntries (p : Nat) (x : Port) : (s.setPort p x).mbEntries = s.mbEntries := rfl
@[simp] theorem setPort_calReplaced (p : Nat) (x : Port) : (s.setPort p x).calReplaced = s.calReplaced := rfl
@[simp] theorem setPort_calSet (p : Nat) (x : Port) : (s.setPort p x).calSet = s.calSet := rfl
@[simp] theorem setPort_calCorrupt (p : Nat) (x : Port) : (s.setPort p x).calCorrupt = s.calCorrupt := rfl
@[simp] theorem setPort_calGeneration (p : Nat) (x : Port) : (s.setPort p x).calGeneration = s.calGeneration := rfl
@[simp] theorem setPort_activating (p : Nat) (x : Port) : (s.setPort p x).activating = s.activating := rfl
@[simp] theorem setPort_smbus (p : Nat) (x : Port) : (s.setPort p x).smbus = s.smbus := rfl
@[simp] theorem setPort_lastGen (p : Nat) (x : Port) : (s.setPort p x).lastGen = s.lastGen := rfl
@[simp] theorem setPort_slotsReserved (p : Nat) (x : Port) : (s.setPort p x).slotsReserved = s.slotsReserved := rfl
@[simp] theorem setPort_slotsOld (p : Nat) (x : Port) : (s.setPort p x).slotsOld = s.slotsOld := rfl
@[simp] theorem setPort_restored (p : Nat) (x : Port) : (s.setPort p x).restored = s.restored := rfl
@[simp] theorem setPort_heldOps (p : Nat) (x : Port) : (s.setPort p x).heldOps = s.heldOps := rfl
@[simp] theorem setPort_free (p : Nat) (x : Port) : (s.setPort p x).free = s.free := rfl
@[simp] theorem setPort_frame (p : Nat) (x : Port) (j : Nat) : (s.setPort p x).frame j = s.frame j := rfl
@[simp] theorem setPort_bead (p : Nat) (x : Port) (j : BeadId) : (s.setPort p x).bead j = s.bead j := rfl
@[simp] theorem setPort_rod (p : Nat) (x : Port) (j : RodId) : (s.setPort p x).rod j = s.rod j := rfl
@[simp] theorem setPort_part (p : Nat) (x : Port) (j : Nat) : (s.setPort p x).part j = s.part j := rfl

/-! ## setPart -/

@[simp] theorem setPart_pending (n : Nat) (x : Part) : (s.setPart n x).pending = s.pending := rfl
@[simp] theorem setPart_mem (n : Nat) (x : Part) : (s.setPart n x).mem = s.mem := rfl
@[simp] theorem setPart_frames (n : Nat) (x : Part) : (s.setPart n x).frames = s.frames := rfl
@[simp] theorem setPart_beads (n : Nat) (x : Part) : (s.setPart n x).beads = s.beads := rfl
@[simp] theorem setPart_rods (n : Nat) (x : Part) : (s.setPart n x).rods = s.rods := rfl
@[simp] theorem setPart_ports (n : Nat) (x : Part) : (s.setPart n x).ports = s.ports := rfl
@[simp] theorem setPart_firings (n : Nat) (x : Part) : (s.setPart n x).firings = s.firings := rfl
@[simp] theorem setPart_nextHandle (n : Nat) (x : Part) : (s.setPart n x).nextHandle = s.nextHandle := rfl
@[simp] theorem setPart_cmds (n : Nat) (x : Part) : (s.setPart n x).cmds = s.cmds := rfl
@[simp] theorem setPart_nextCmd (n : Nat) (x : Part) : (s.setPart n x).nextCmd = s.nextCmd := rfl
@[simp] theorem setPart_master (n : Nat) (x : Part) : (s.setPart n x).master = s.master := rfl
@[simp] theorem setPart_ka (n : Nat) (x : Part) : (s.setPart n x).ka = s.ka := rfl
@[simp] theorem setPart_seqr (n : Nat) (x : Part) : (s.setPart n x).seqr = s.seqr := rfl
@[simp] theorem setPart_twin (n : Nat) (x : Part) : (s.setPart n x).twin = s.twin := rfl
@[simp] theorem setPart_bayA (n : Nat) (x : Part) : (s.setPart n x).bayA = s.bayA := rfl
@[simp] theorem setPart_bayB (n : Nat) (x : Part) : (s.setPart n x).bayB = s.bayB := rfl
@[simp] theorem setPart_bayRefused (n : Nat) (x : Part) : (s.setPart n x).bayRefused = s.bayRefused := rfl
@[simp] theorem setPart_lives (n : Nat) (x : Part) : (s.setPart n x).lives = s.lives := rfl
@[simp] theorem setPart_gapFrames (n : Nat) (x : Part) : (s.setPart n x).gapFrames = s.gapFrames := rfl
@[simp] theorem setPart_ckptLate (n : Nat) (x : Part) : (s.setPart n x).ckptLate = s.ckptLate := rfl
@[simp] theorem setPart_tierfUnreadable (n : Nat) (x : Part) : (s.setPart n x).tierfUnreadable = s.tierfUnreadable := rfl
@[simp] theorem setPart_fabric (n : Nat) (x : Part) : (s.setPart n x).fabric = s.fabric := rfl
@[simp] theorem setPart_mb (n : Nat) (x : Part) : (s.setPart n x).mb = s.mb := rfl
@[simp] theorem setPart_mbLive (n : Nat) (x : Part) : (s.setPart n x).mbLive = s.mbLive := rfl
@[simp] theorem setPart_mbStaged (n : Nat) (x : Part) : (s.setPart n x).mbStaged = s.mbStaged := rfl
@[simp] theorem setPart_mbEntries (n : Nat) (x : Part) : (s.setPart n x).mbEntries = s.mbEntries := rfl
@[simp] theorem setPart_calReplaced (n : Nat) (x : Part) : (s.setPart n x).calReplaced = s.calReplaced := rfl
@[simp] theorem setPart_calSet (n : Nat) (x : Part) : (s.setPart n x).calSet = s.calSet := rfl
@[simp] theorem setPart_calCorrupt (n : Nat) (x : Part) : (s.setPart n x).calCorrupt = s.calCorrupt := rfl
@[simp] theorem setPart_calGeneration (n : Nat) (x : Part) : (s.setPart n x).calGeneration = s.calGeneration := rfl
@[simp] theorem setPart_activating (n : Nat) (x : Part) : (s.setPart n x).activating = s.activating := rfl
@[simp] theorem setPart_smbus (n : Nat) (x : Part) : (s.setPart n x).smbus = s.smbus := rfl
@[simp] theorem setPart_lastGen (n : Nat) (x : Part) : (s.setPart n x).lastGen = s.lastGen := rfl
@[simp] theorem setPart_slotsReserved (n : Nat) (x : Part) : (s.setPart n x).slotsReserved = s.slotsReserved := rfl
@[simp] theorem setPart_slotsOld (n : Nat) (x : Part) : (s.setPart n x).slotsOld = s.slotsOld := rfl
@[simp] theorem setPart_restored (n : Nat) (x : Part) : (s.setPart n x).restored = s.restored := rfl
@[simp] theorem setPart_heldOps (n : Nat) (x : Part) : (s.setPart n x).heldOps = s.heldOps := rfl
@[simp] theorem setPart_free (n : Nat) (x : Part) : (s.setPart n x).free = s.free := rfl
@[simp] theorem setPart_frame (n : Nat) (x : Part) (j : Nat) : (s.setPart n x).frame j = s.frame j := rfl
@[simp] theorem setPart_bead (n : Nat) (x : Part) (j : BeadId) : (s.setPart n x).bead j = s.bead j := rfl
@[simp] theorem setPart_rod (n : Nat) (x : Part) (j : RodId) : (s.setPart n x).rod j = s.rod j := rfl
@[simp] theorem setPart_port (n : Nat) (x : Part) (j : Nat) : (s.setPart n x).port j = s.port j := rfl

/-! ## modFiring -/

@[simp] theorem modFiring_pending (h : Nat) (g : Firing → Firing) : (s.modFiring h g).pending = s.pending := rfl
@[simp] theorem modFiring_mem (h : Nat) (g : Firing → Firing) : (s.modFiring h g).mem = s.mem := rfl
@[simp] theorem modFiring_frames (h : Nat) (g : Firing → Firing) : (s.modFiring h g).frames = s.frames := rfl
@[simp] theorem modFiring_beads (h : Nat) (g : Firing → Firing) : (s.modFiring h g).beads = s.beads := rfl
@[simp] theorem modFiring_rods (h : Nat) (g : Firing → Firing) : (s.modFiring h g).rods = s.rods := rfl
@[simp] theorem modFiring_ports (h : Nat) (g : Firing → Firing) : (s.modFiring h g).ports = s.ports := rfl
@[simp] theorem modFiring_parts (h : Nat) (g : Firing → Firing) : (s.modFiring h g).parts = s.parts := rfl
@[simp] theorem modFiring_nextHandle (h : Nat) (g : Firing → Firing) : (s.modFiring h g).nextHandle = s.nextHandle := rfl
@[simp] theorem modFiring_cmds (h : Nat) (g : Firing → Firing) : (s.modFiring h g).cmds = s.cmds := rfl
@[simp] theorem modFiring_nextCmd (h : Nat) (g : Firing → Firing) : (s.modFiring h g).nextCmd = s.nextCmd := rfl
@[simp] theorem modFiring_master (h : Nat) (g : Firing → Firing) : (s.modFiring h g).master = s.master := rfl
@[simp] theorem modFiring_ka (h : Nat) (g : Firing → Firing) : (s.modFiring h g).ka = s.ka := rfl
@[simp] theorem modFiring_seqr (h : Nat) (g : Firing → Firing) : (s.modFiring h g).seqr = s.seqr := rfl
@[simp] theorem modFiring_twin (h : Nat) (g : Firing → Firing) : (s.modFiring h g).twin = s.twin := rfl
@[simp] theorem modFiring_bayA (h : Nat) (g : Firing → Firing) : (s.modFiring h g).bayA = s.bayA := rfl
@[simp] theorem modFiring_bayB (h : Nat) (g : Firing → Firing) : (s.modFiring h g).bayB = s.bayB := rfl
@[simp] theorem modFiring_bayRefused (h : Nat) (g : Firing → Firing) : (s.modFiring h g).bayRefused = s.bayRefused := rfl
@[simp] theorem modFiring_lives (h : Nat) (g : Firing → Firing) : (s.modFiring h g).lives = s.lives := rfl
@[simp] theorem modFiring_gapFrames (h : Nat) (g : Firing → Firing) : (s.modFiring h g).gapFrames = s.gapFrames := rfl
@[simp] theorem modFiring_ckptLate (h : Nat) (g : Firing → Firing) : (s.modFiring h g).ckptLate = s.ckptLate := rfl
@[simp] theorem modFiring_tierfUnreadable (h : Nat) (g : Firing → Firing) : (s.modFiring h g).tierfUnreadable = s.tierfUnreadable := rfl
@[simp] theorem modFiring_fabric (h : Nat) (g : Firing → Firing) : (s.modFiring h g).fabric = s.fabric := rfl
@[simp] theorem modFiring_mb (h : Nat) (g : Firing → Firing) : (s.modFiring h g).mb = s.mb := rfl
@[simp] theorem modFiring_mbLive (h : Nat) (g : Firing → Firing) : (s.modFiring h g).mbLive = s.mbLive := rfl
@[simp] theorem modFiring_mbStaged (h : Nat) (g : Firing → Firing) : (s.modFiring h g).mbStaged = s.mbStaged := rfl
@[simp] theorem modFiring_mbEntries (h : Nat) (g : Firing → Firing) : (s.modFiring h g).mbEntries = s.mbEntries := rfl
@[simp] theorem modFiring_calReplaced (h : Nat) (g : Firing → Firing) : (s.modFiring h g).calReplaced = s.calReplaced := rfl
@[simp] theorem modFiring_calSet (h : Nat) (g : Firing → Firing) : (s.modFiring h g).calSet = s.calSet := rfl
@[simp] theorem modFiring_calCorrupt (h : Nat) (g : Firing → Firing) : (s.modFiring h g).calCorrupt = s.calCorrupt := rfl
@[simp] theorem modFiring_calGeneration (h : Nat) (g : Firing → Firing) : (s.modFiring h g).calGeneration = s.calGeneration := rfl
@[simp] theorem modFiring_activating (h : Nat) (g : Firing → Firing) : (s.modFiring h g).activating = s.activating := rfl
@[simp] theorem modFiring_smbus (h : Nat) (g : Firing → Firing) : (s.modFiring h g).smbus = s.smbus := rfl
@[simp] theorem modFiring_lastGen (h : Nat) (g : Firing → Firing) : (s.modFiring h g).lastGen = s.lastGen := rfl
@[simp] theorem modFiring_slotsReserved (h : Nat) (g : Firing → Firing) : (s.modFiring h g).slotsReserved = s.slotsReserved := rfl
@[simp] theorem modFiring_slotsOld (h : Nat) (g : Firing → Firing) : (s.modFiring h g).slotsOld = s.slotsOld := rfl
@[simp] theorem modFiring_restored (h : Nat) (g : Firing → Firing) : (s.modFiring h g).restored = s.restored := rfl
@[simp] theorem modFiring_heldOps (h : Nat) (g : Firing → Firing) : (s.modFiring h g).heldOps = s.heldOps := rfl
@[simp] theorem modFiring_free (h : Nat) (g : Firing → Firing) : (s.modFiring h g).free = s.free := rfl
@[simp] theorem modFiring_frame (h : Nat) (g : Firing → Firing) (j : Nat) : (s.modFiring h g).frame j = s.frame j := rfl
@[simp] theorem modFiring_bead (h : Nat) (g : Firing → Firing) (j : BeadId) : (s.modFiring h g).bead j = s.bead j := rfl
@[simp] theorem modFiring_rod (h : Nat) (g : Firing → Firing) (j : RodId) : (s.modFiring h g).rod j = s.rod j := rfl
@[simp] theorem modFiring_port (h : Nat) (g : Firing → Firing) (j : Nat) : (s.modFiring h g).port j = s.port j := rfl
@[simp] theorem modFiring_part (h : Nat) (g : Firing → Firing) (j : Nat) : (s.modFiring h g).part j = s.part j := rfl

/-! ## modCmd -/

@[simp] theorem modCmd_pending (c : Nat) (g : Cmd → Cmd) : (s.modCmd c g).pending = s.pending := rfl
@[simp] theorem modCmd_mem (c : Nat) (g : Cmd → Cmd) : (s.modCmd c g).mem = s.mem := rfl
@[simp] theorem modCmd_frames (c : Nat) (g : Cmd → Cmd) : (s.modCmd c g).frames = s.frames := rfl
@[simp] theorem modCmd_beads (c : Nat) (g : Cmd → Cmd) : (s.modCmd c g).beads = s.beads := rfl
@[simp] theorem modCmd_rods (c : Nat) (g : Cmd → Cmd) : (s.modCmd c g).rods = s.rods := rfl
@[simp] theorem modCmd_ports (c : Nat) (g : Cmd → Cmd) : (s.modCmd c g).ports = s.ports := rfl
@[simp] theorem modCmd_parts (c : Nat) (g : Cmd → Cmd) : (s.modCmd c g).parts = s.parts := rfl
@[simp] theorem modCmd_firings (c : Nat) (g : Cmd → Cmd) : (s.modCmd c g).firings = s.firings := rfl
@[simp] theorem modCmd_nextHandle (c : Nat) (g : Cmd → Cmd) : (s.modCmd c g).nextHandle = s.nextHandle := rfl
@[simp] theorem modCmd_nextCmd (c : Nat) (g : Cmd → Cmd) : (s.modCmd c g).nextCmd = s.nextCmd := rfl
@[simp] theorem modCmd_master (c : Nat) (g : Cmd → Cmd) : (s.modCmd c g).master = s.master := rfl
@[simp] theorem modCmd_ka (c : Nat) (g : Cmd → Cmd) : (s.modCmd c g).ka = s.ka := rfl
@[simp] theorem modCmd_seqr (c : Nat) (g : Cmd → Cmd) : (s.modCmd c g).seqr = s.seqr := rfl
@[simp] theorem modCmd_twin (c : Nat) (g : Cmd → Cmd) : (s.modCmd c g).twin = s.twin := rfl
@[simp] theorem modCmd_bayA (c : Nat) (g : Cmd → Cmd) : (s.modCmd c g).bayA = s.bayA := rfl
@[simp] theorem modCmd_bayB (c : Nat) (g : Cmd → Cmd) : (s.modCmd c g).bayB = s.bayB := rfl
@[simp] theorem modCmd_bayRefused (c : Nat) (g : Cmd → Cmd) : (s.modCmd c g).bayRefused = s.bayRefused := rfl
@[simp] theorem modCmd_lives (c : Nat) (g : Cmd → Cmd) : (s.modCmd c g).lives = s.lives := rfl
@[simp] theorem modCmd_gapFrames (c : Nat) (g : Cmd → Cmd) : (s.modCmd c g).gapFrames = s.gapFrames := rfl
@[simp] theorem modCmd_ckptLate (c : Nat) (g : Cmd → Cmd) : (s.modCmd c g).ckptLate = s.ckptLate := rfl
@[simp] theorem modCmd_tierfUnreadable (c : Nat) (g : Cmd → Cmd) : (s.modCmd c g).tierfUnreadable = s.tierfUnreadable := rfl
@[simp] theorem modCmd_fabric (c : Nat) (g : Cmd → Cmd) : (s.modCmd c g).fabric = s.fabric := rfl
@[simp] theorem modCmd_mb (c : Nat) (g : Cmd → Cmd) : (s.modCmd c g).mb = s.mb := rfl
@[simp] theorem modCmd_mbLive (c : Nat) (g : Cmd → Cmd) : (s.modCmd c g).mbLive = s.mbLive := rfl
@[simp] theorem modCmd_mbStaged (c : Nat) (g : Cmd → Cmd) : (s.modCmd c g).mbStaged = s.mbStaged := rfl
@[simp] theorem modCmd_mbEntries (c : Nat) (g : Cmd → Cmd) : (s.modCmd c g).mbEntries = s.mbEntries := rfl
@[simp] theorem modCmd_calReplaced (c : Nat) (g : Cmd → Cmd) : (s.modCmd c g).calReplaced = s.calReplaced := rfl
@[simp] theorem modCmd_calSet (c : Nat) (g : Cmd → Cmd) : (s.modCmd c g).calSet = s.calSet := rfl
@[simp] theorem modCmd_calCorrupt (c : Nat) (g : Cmd → Cmd) : (s.modCmd c g).calCorrupt = s.calCorrupt := rfl
@[simp] theorem modCmd_calGeneration (c : Nat) (g : Cmd → Cmd) : (s.modCmd c g).calGeneration = s.calGeneration := rfl
@[simp] theorem modCmd_activating (c : Nat) (g : Cmd → Cmd) : (s.modCmd c g).activating = s.activating := rfl
@[simp] theorem modCmd_smbus (c : Nat) (g : Cmd → Cmd) : (s.modCmd c g).smbus = s.smbus := rfl
@[simp] theorem modCmd_lastGen (c : Nat) (g : Cmd → Cmd) : (s.modCmd c g).lastGen = s.lastGen := rfl
@[simp] theorem modCmd_slotsReserved (c : Nat) (g : Cmd → Cmd) : (s.modCmd c g).slotsReserved = s.slotsReserved := rfl
@[simp] theorem modCmd_slotsOld (c : Nat) (g : Cmd → Cmd) : (s.modCmd c g).slotsOld = s.slotsOld := rfl
@[simp] theorem modCmd_restored (c : Nat) (g : Cmd → Cmd) : (s.modCmd c g).restored = s.restored := rfl
@[simp] theorem modCmd_heldOps (c : Nat) (g : Cmd → Cmd) : (s.modCmd c g).heldOps = s.heldOps := rfl
@[simp] theorem modCmd_free (c : Nat) (g : Cmd → Cmd) : (s.modCmd c g).free = s.free := rfl
@[simp] theorem modCmd_frame (c : Nat) (g : Cmd → Cmd) (j : Nat) : (s.modCmd c g).frame j = s.frame j := rfl
@[simp] theorem modCmd_bead (c : Nat) (g : Cmd → Cmd) (j : BeadId) : (s.modCmd c g).bead j = s.bead j := rfl
@[simp] theorem modCmd_rod (c : Nat) (g : Cmd → Cmd) (j : RodId) : (s.modCmd c g).rod j = s.rod j := rfl
@[simp] theorem modCmd_port (c : Nat) (g : Cmd → Cmd) (j : Nat) : (s.modCmd c g).port j = s.port j := rfl
@[simp] theorem modCmd_part (c : Nat) (g : Cmd → Cmd) (j : Nat) : (s.modCmd c g).part j = s.part j := rfl

/-! ## tick -/

@[simp] theorem tick_pending : (s.tick).pending = s.pending := rfl
@[simp] theorem tick_mem : (s.tick).mem = s.mem := rfl
@[simp] theorem tick_frames : (s.tick).frames = s.frames := rfl
@[simp] theorem tick_beads : (s.tick).beads = s.beads := rfl
@[simp] theorem tick_rods : (s.tick).rods = s.rods := rfl
@[simp] theorem tick_ports : (s.tick).ports = s.ports := rfl
@[simp] theorem tick_parts : (s.tick).parts = s.parts := rfl
@[simp] theorem tick_firings : (s.tick).firings = s.firings := rfl
@[simp] theorem tick_nextHandle : (s.tick).nextHandle = s.nextHandle := rfl
@[simp] theorem tick_cmds : (s.tick).cmds = s.cmds := rfl
@[simp] theorem tick_nextCmd : (s.tick).nextCmd = s.nextCmd := rfl
@[simp] theorem tick_master : (s.tick).master = s.master := rfl
@[simp] theorem tick_ka : (s.tick).ka = s.ka := rfl
@[simp] theorem tick_seqr : (s.tick).seqr = s.seqr := rfl
@[simp] theorem tick_twin : (s.tick).twin = s.twin := rfl
@[simp] theorem tick_bayA : (s.tick).bayA = s.bayA := rfl
@[simp] theorem tick_bayB : (s.tick).bayB = s.bayB := rfl
@[simp] theorem tick_bayRefused : (s.tick).bayRefused = s.bayRefused := rfl
@[simp] theorem tick_lives : (s.tick).lives = s.lives := rfl
@[simp] theorem tick_gapFrames : (s.tick).gapFrames = s.gapFrames := rfl
@[simp] theorem tick_ckptLate : (s.tick).ckptLate = s.ckptLate := rfl
@[simp] theorem tick_tierfUnreadable : (s.tick).tierfUnreadable = s.tierfUnreadable := rfl
@[simp] theorem tick_fabric : (s.tick).fabric = s.fabric := rfl
@[simp] theorem tick_mb : (s.tick).mb = s.mb := rfl
@[simp] theorem tick_mbLive : (s.tick).mbLive = s.mbLive := rfl
@[simp] theorem tick_mbStaged : (s.tick).mbStaged = s.mbStaged := rfl
@[simp] theorem tick_mbEntries : (s.tick).mbEntries = s.mbEntries := rfl
@[simp] theorem tick_calReplaced : (s.tick).calReplaced = s.calReplaced := rfl
@[simp] theorem tick_calSet : (s.tick).calSet = s.calSet := rfl
@[simp] theorem tick_calCorrupt : (s.tick).calCorrupt = s.calCorrupt := rfl
@[simp] theorem tick_calGeneration : (s.tick).calGeneration = s.calGeneration := rfl
@[simp] theorem tick_activating : (s.tick).activating = s.activating := rfl
@[simp] theorem tick_smbus : (s.tick).smbus = s.smbus := rfl
@[simp] theorem tick_lastGen : (s.tick).lastGen = s.lastGen := rfl
@[simp] theorem tick_slotsReserved : (s.tick).slotsReserved = s.slotsReserved := rfl
@[simp] theorem tick_slotsOld : (s.tick).slotsOld = s.slotsOld := rfl
@[simp] theorem tick_restored : (s.tick).restored = s.restored := rfl
@[simp] theorem tick_heldOps : (s.tick).heldOps = s.heldOps := rfl
@[simp] theorem tick_frame (j : Nat) : (s.tick).frame j = s.frame j := rfl
@[simp] theorem tick_bead (j : BeadId) : (s.tick).bead j = s.bead j := rfl
@[simp] theorem tick_rod (j : RodId) : (s.tick).rod j = s.rod j := rfl
@[simp] theorem tick_port (j : Nat) : (s.tick).port j = s.port j := rfl
@[simp] theorem tick_part (j : Nat) : (s.tick).part j = s.part j := rfl

/-! ## alert -/

@[simp] theorem alert_pending (k : Nat) : (s.alert k).pending = s.pending := rfl
@[simp] theorem alert_mem (k : Nat) : (s.alert k).mem = s.mem := rfl
@[simp] theorem alert_frames (k : Nat) : (s.alert k).frames = s.frames := rfl
@[simp] theorem alert_beads (k : Nat) : (s.alert k).beads = s.beads := rfl
@[simp] theorem alert_rods (k : Nat) : (s.alert k).rods = s.rods := rfl
@[simp] theorem alert_ports (k : Nat) : (s.alert k).ports = s.ports := rfl
@[simp] theorem alert_parts (k : Nat) : (s.alert k).parts = s.parts := rfl
@[simp] theorem alert_firings (k : Nat) : (s.alert k).firings = s.firings := rfl
@[simp] theorem alert_nextHandle (k : Nat) : (s.alert k).nextHandle = s.nextHandle := rfl
@[simp] theorem alert_cmds (k : Nat) : (s.alert k).cmds = s.cmds := rfl
@[simp] theorem alert_nextCmd (k : Nat) : (s.alert k).nextCmd = s.nextCmd := rfl
@[simp] theorem alert_master (k : Nat) : (s.alert k).master = s.master := rfl
@[simp] theorem alert_ka (k : Nat) : (s.alert k).ka = s.ka := rfl
@[simp] theorem alert_seqr (k : Nat) : (s.alert k).seqr = s.seqr := rfl
@[simp] theorem alert_twin (k : Nat) : (s.alert k).twin = s.twin := rfl
@[simp] theorem alert_bayA (k : Nat) : (s.alert k).bayA = s.bayA := rfl
@[simp] theorem alert_bayB (k : Nat) : (s.alert k).bayB = s.bayB := rfl
@[simp] theorem alert_bayRefused (k : Nat) : (s.alert k).bayRefused = s.bayRefused := rfl
@[simp] theorem alert_lives (k : Nat) : (s.alert k).lives = s.lives := rfl
@[simp] theorem alert_gapFrames (k : Nat) : (s.alert k).gapFrames = s.gapFrames := rfl
@[simp] theorem alert_ckptLate (k : Nat) : (s.alert k).ckptLate = s.ckptLate := rfl
@[simp] theorem alert_tierfUnreadable (k : Nat) : (s.alert k).tierfUnreadable = s.tierfUnreadable := rfl
@[simp] theorem alert_fabric (k : Nat) : (s.alert k).fabric = s.fabric := rfl
@[simp] theorem alert_mb (k : Nat) : (s.alert k).mb = s.mb := rfl
@[simp] theorem alert_mbLive (k : Nat) : (s.alert k).mbLive = s.mbLive := rfl
@[simp] theorem alert_mbStaged (k : Nat) : (s.alert k).mbStaged = s.mbStaged := rfl
@[simp] theorem alert_mbEntries (k : Nat) : (s.alert k).mbEntries = s.mbEntries := rfl
@[simp] theorem alert_calReplaced (k : Nat) : (s.alert k).calReplaced = s.calReplaced := rfl
@[simp] theorem alert_calSet (k : Nat) : (s.alert k).calSet = s.calSet := rfl
@[simp] theorem alert_calCorrupt (k : Nat) : (s.alert k).calCorrupt = s.calCorrupt := rfl
@[simp] theorem alert_calGeneration (k : Nat) : (s.alert k).calGeneration = s.calGeneration := rfl
@[simp] theorem alert_activating (k : Nat) : (s.alert k).activating = s.activating := rfl
@[simp] theorem alert_lastGen (k : Nat) : (s.alert k).lastGen = s.lastGen := rfl
@[simp] theorem alert_slotsReserved (k : Nat) : (s.alert k).slotsReserved = s.slotsReserved := rfl
@[simp] theorem alert_slotsOld (k : Nat) : (s.alert k).slotsOld = s.slotsOld := rfl
@[simp] theorem alert_restored (k : Nat) : (s.alert k).restored = s.restored := rfl
@[simp] theorem alert_heldOps (k : Nat) : (s.alert k).heldOps = s.heldOps := rfl
@[simp] theorem alert_free (k : Nat) : (s.alert k).free = s.free := rfl
@[simp] theorem alert_frame (k : Nat) (j : Nat) : (s.alert k).frame j = s.frame j := rfl
@[simp] theorem alert_bead (k : Nat) (j : BeadId) : (s.alert k).bead j = s.bead j := rfl
@[simp] theorem alert_rod (k : Nat) (j : RodId) : (s.alert k).rod j = s.rod j := rfl
@[simp] theorem alert_port (k : Nat) (j : Nat) : (s.alert k).port j = s.port j := rfl
@[simp] theorem alert_part (k : Nat) (j : Nat) : (s.alert k).part j = s.part j := rfl

end State

end Sys2Proof.Machine
end

