-- ==== Sys2Proof/Laws/Shared.lean ====
section
/-! SUPPORT. What the operations that every meaning shares can do, said once: the outcome of a command, the ways to apply a
change, the end of a command, the issue of an instruction, writes of device memory. -/

namespace Sys2Proof.Machine

/-! ## Outcomes -/

theorem within_eq_next {ok : Bool} {t u : State} : within ok t = .next u ↔ ok = true ∧ t = u := by
  cases ok <;> simp [within]

theorem within_eq_fault {ok : Bool} {t : State} {e : Fault} : within ok t = .fault e ↔ ok = false ∧ e = .noSuchUnit := by
  cases ok <;> simp [within, eq_comm]

theorem within_ne_refused (ok : Bool) (t : State) (r : Refusal) : within ok t ≠ .refused r := by
  cases ok <;> simp [within]

/-! ## Changes that may not apply, and changes in order -/

theorem State.when_cases (s : State) (b : Bool) (g : State → State) :
    (b = true ∧ s.when b g = g s) ∨ (b = false ∧ s.when b g = s) := by
  cases b <;> simp [State.when]

theorem State.when_inv {P : State → Prop} {s : State} {b : Bool} {g : State → State} (h : P s)
    (hg : b = true → P (g s)) : P (s.when b g) := by
  rcases s.when_cases b g with ⟨hb, e⟩ | ⟨_, e⟩ <;> rw [e]
  · exact hg hb
  · exact h

theorem State.withSome_inv {α : Type} {P : State → Prop} {s : State} {o : Option α} {g : State → α → State} (h : P s)
    (hg : ∀ a, o = some a → P (g s a)) : P (s.withSome o g) := by
  cases o with
  | none => exact h
  | some a => exact hg a rfl

/-! ## Numbers -/

/-- The largest number below `n` that passes: it passes, lies below `n`, and none between passes. -/
theorem lastBelow_some {p : Nat → Bool} {n k : Nat} (h : lastBelow p n = some k) :
    k < n ∧ p k = true ∧ ∀ j, k < j → j < n → p j = false := by
  induction n with
  | zero => simp [lastBelow] at h
  | succ n ih =>
    rw [lastBelow] at h
    split at h
    · rename_i hp
      obtain rfl := Option.some.inj h
      exact ⟨by omega, hp, fun j _ _ => by omega⟩
    · rename_i hp
      obtain ⟨a, b, c⟩ := ih h
      refine ⟨by omega, b, fun j hj hn => ?_⟩
      by_cases e : j = n
      · exact e ▸ Bool.eq_false_iff.mpr hp
      · exact c j hj (by omega)

theorem lastBelow_none {p : Nat → Bool} {n : Nat} (h : lastBelow p n = none) : ∀ j, j < n → p j = false := by
  induction n with
  | zero => exact fun j hj => by omega
  | succ n ih =>
    rw [lastBelow] at h
    split at h
    · cases h
    · rename_i hp
      intro j hj
      by_cases e : j = n
      · exact e ▸ Bool.eq_false_iff.mpr hp
      · exact ih h j (by omega)

@[simp] theorem length_leBytes (n v : Nat) : (leBytes n v).length = n := by simp [leBytes]

/-! ## Commands -/

/-- A command in flight that is ready and has the opcode is acted on; otherwise nothing happens. -/
theorem State.onReady_cases (s : State) (c op : Nat) (g : State → Cmd → State) :
    s.onReady c op g = s ∨
      ∃ x, s.cmd c = some x ∧ x.phase = .ready ∧ x.d.opcode = op ∧ s.cplHeld x = false ∧ s.onReady c op g = g s x := by
  unfold State.onReady
  split
  · rename_i x hx
    split
    · rename_i h
      exact .inr ⟨x, hx, h.1, h.2.1, by simpa using h.2.2, rfl⟩
    · exact .inl rfl
  · exact .inl rfl

/-- A command in flight whose record is not held completes; otherwise nothing happens. -/
theorem State.complete_cases (s : State) (c code detail : Nat) (result : Word64) :
    s.complete c code detail result = s ∨
      ∃ x, s.cmd c = some x ∧ s.complete c code detail result = s.finish x code detail result := by
  unfold State.complete
  split
  · exact .inl rfl
  · rename_i x hx
    split
    · exact .inl rfl
    · exact .inr ⟨x, hx, rfl⟩

/-- A record becomes a shadow entry, is posted, or is held for space. -/
theorem State.record_cases (s : State) (c : Cmd) (r : CplRecord) :
    s.record c r = (s.shadowEntry c r).leave c ∨ s.record c r = s.postRecord c r ∨
      s.record c r = s.modRing c.port c.ring fun g => { g with held := g.held ++ [(c.id, r)] } := by
  unfold State.record
  dsimp only
  split
  · exact .inl rfl
  · split
    · exact .inr (.inl rfl)
    · exact .inr (.inr rfl)

@[simp] theorem CplRecord.length_bytes (r : CplRecord) (phase : Bool) : (r.bytes phase).length = 32 := by
  simp [CplRecord.bytes]

/-! ## Issue -/

/-- An instruction issues in its context's turn, or nothing happens. -/
theorem State.issue_cases (s : State) (b : BeadId) (c : Nat) (i : Instr) (g : State → Ctx → State) :
    (s.mayIssue b c i = true ∧ s.issue b c i g = g (s.took b c) ((s.bead b).ctx c)) ∨
      (s.mayIssue b c i = false ∧ s.issue b c i g = s) := s.when_cases _ _

/-! ## Device memory -/

/-- A write of device bytes keeps every memory in canonical form. -/
theorem State.pokeDev_memOk (s : State) (p : Place) (bs : List Byte) (h : s.memOk = true) : (s.pokeDev p bs).memOk = true := by
  simp only [State.memOk, Memory.wf, Bool.and_eq_true, State.pokeDev] at *
  exact ⟨⟨⟨Mem.wf_setBytes _ _ _ h.1.1.1, h.1.1.2⟩, h.1.2⟩, h.2⟩

/-- Clearing poison changes no byte. -/
@[simp] theorem State.clearPoison_dram (s : State) (p : Place) (n : Nat) : (s.clearPoison p n).mem.dram = s.mem.dram := rfl

theorem State.clearPoison_memOk (s : State) (p : Place) (n : Nat) : (s.clearPoison p n).memOk = s.memOk := rfl

end Sys2Proof.Machine
end

