-- ==== Sys2Proof/Tests/Slice0.lean ====
section
/-! SUPPORT. Tests: an ill-formed command for each check; for each statement, states and operands that meet its hypotheses, with
what the spec says the command then does. Expected values are worked out by hand from the rules named. -/

namespace Sys2Proof.Tests

open Sys2Proof.Machine

set_option Elab.async false

/-- The command answers a next state that passes `p`. -/
def run (i : Instr) (s : State) (p : State → Bool) : Bool :=
  match exec i s with
  | .next t => p t
  | _ => false

/-- The command changes nothing. -/
def still (i : Instr) (s : State) : Bool := run i s fun t => decide (t = s)

/-- The command faults at a unit that does not exist. -/
def noUnit (i : Instr) : Bool :=
  !i.wellFormed && match exec i State.reset with
  | .fault .noSuchUnit => true
  | _ => false

/-! ## Small states -/

def bead0 : BeadId := ⟨0, 0, 0, 0⟩

def rod0 : RodId := ⟨0, 0, 0⟩

def noContents : ImageContents where
  computeRods := []
  shadowRods := []
  rotationOffset := 0
  threads := []
  defs := []
  moverProgs := []
  histTable := []
  plan := []
  routes := []
  indexPositions := []
  tally := []
  placement := []
  requestBytes := 0
  outputBytes := 0
  outputs := 0

/-- An image with the one rod 0 of frame 0. -/
def image0 : Image where
  firingId := 0
  mode := 0
  tied := false
  seq := false
  carryFlag := false
  batchSlots := 1
  beadFrames := 1
  shardFrames := 0
  stepBound := 0
  holdNs := 0
  floorMops := 700
  minPch := 0
  minPkg := 0
  minRods := 0
  contents := { noContents with computeRods := [rod0] }
  rules := []
  evalSteps := 0
  seqBlocks := 0
  joinMax := 0
  maxSteps := 0
  slotWordOffset := 0
  slotTable := 0
  coils := []

def step0 : Machine.Step := ⟨[], false, [], [], 0⟩

def firing0 : Firing where
  handle := 1
  part := 0
  img := image0
  status := .running
  withdrawing := false
  step := none
  stepNo := 0
  stepsRun := 0
  swap := none
  rules := []
  hist := []
  late := []
  pins := []
  acct := none
  releasing := []
  leaving := []
  coils := []
  mismatches := []
  keptEvents := []
  ahead := []
  sent := []
  oldTables := []

def desc0 : Desc where
  opcode := 0x3F
  flags := 0
  tag := 7
  timeoutUs := 0
  waitFence := 0
  signalFence := 0
  waitValue := 0
  signalValue := 0
  chainAddr := 0
  op0 := 0
  op1 := 0
  op2 := 0
  validity := 0
  reserved := false

/-- A command of ring 0 of port 0 with an opcode, in a phase. -/
def cmd0 (op : Nat) (phase : CmdPhase) : Cmd := { newCmd 5 0 0 3 { desc0 with opcode := op } false 0 0 none with phase := phase }

/-- Port 0 ATTACHED; ring 0 FETCHING with one place taken, and space for records. -/
def attached : State :=
  (State.reset.modPort 0 fun p => { p with state := 2 }).modRing 0 0 fun r => { r with state := 2, inflight := 1 }

/-- A command in flight there. -/
def withCmd (x : Cmd) : State := { attached with cmds := [x] }

/-- A firing admitted on partition 0. -/
def withFiring (f : Firing) : State := { State.reset with firings := [f] }

/-- A step runs; context 0 of bead 0 has some registers. -/
def issuing (regs : Sparse Word64) : State :=
  (withFiring { firing0 with step := some step0 }).setBead bead0
    (Bead.reset.setCtx 0 { Ctx.reset with regs := regs, ended := false })

/-- The words of the program of context 0 of bead 0. -/
def prog (ws : List Word64) (s : State) : State :=
  s.modFiring 1 fun f => { f with img := { f.img with contents := { f.img.contents with
    threads := [⟨bead0, 0, ws, none, none, none⟩] } } }

/-- Context 0 of bead 0, at the first of these words, issues the command, and the next state passes `p`. -/
def issue (ws : List Word64) (i : Instr) (s : State) (p : State → Bool) : Bool :=
  (prog ws s).mayIssue bead0 0 i && run i (prog ws s) p

/-- A word of class CTRL (R117). -/
def ctrlW (op rd rs rt imm : Nat) : Word64 :=
  BitVec.ofNat 64 (op * 2 ^ 54 + rd * 2 ^ 50 + rs * 2 ^ 46 + rt * 2 ^ 42 + imm)

/-- Partition 0's tree maps the first GiB to tier H of frame 0 at 0x40000000, with PIN and WRITE: a root entry and a 1 GiB leaf. -/
def mapped (s : State) : State :=
  (s.pokeDev ⟨0, .h, 0⟩ (leBytes 8 0x10001)).pokeDev ⟨0, .h, 0x10000⟩ (leBytes 8 0x4000000F)

/-! ## WellFormed: a command that names a unit that does not exist -/

theorem test_no_such_port : noUnit (.attach 4 0) = true ∧ noUnit (.frameCapWrite 4 0 0) = true := by decide +kernel

theorem test_no_such_ring : noUnit (.ringEnable 0 64 0) = true ∧ noUnit (.ringEnable 4 0 0) = true := by decide +kernel

theorem test_no_such_frame : noUnit (.frameQuiescent 20) = true ∧ noUnit (.frameCapWrite 0 20 0) = true := by decide +kernel

theorem test_no_such_link : noUnit (.nak 0 4 0) = true ∧ noUnit (.nak 20 0 0) = true := by decide +kernel

theorem test_no_such_gather_unit : noUnit (.gatherPosition 0 16 []) = true ∧ noUnit (.gatherPosition 20 0 []) = true := by decide +kernel

theorem test_no_such_carry_unit : noUnit (.add 0 12 []) = true ∧ noUnit (.addScaled 20 0 []) = true := by decide +kernel

theorem test_no_such_context : noUnit (.ctrlNop bead0 8) = true ∧ noUnit (.ctrlNop ⟨20, 0, 0, 0⟩ 0) = true := by decide +kernel

theorem test_no_such_bead : noUnit (.vecComplete ⟨0, 15, 0, 0⟩) = true ∧ noUnit (.mmaComplete ⟨0, 0, 125, 0⟩) = true ∧
    noUnit (.pairEvent ⟨0, 0, 0, 8⟩ 0) = true := by decide +kernel

theorem test_no_such_rod : noUnit (.livenessProbe ⟨0, 0, 125⟩ true) = true ∧ noUnit (.mvComplete ⟨0, 15, 0⟩ 0 [] []) = true := by
  decide +kernel

theorem test_no_such_engine : noUnit (.fillerExpire bead0 2) = true ∧ noUnit (.mvComplete rod0 4 [] []) = true ∧
    noUnit (.coilComplete bead0 3) = true := by decide +kernel

theorem test_no_such_physical_rod : noUnit (.spareRodTest 0 0 128) = true ∧ noUnit (.spareRodTest 0 15 0) = true := by
  decide +kernel

theorem test_no_such_burst : noUnit (.burstReq 0 .h 1500000000) = true ∧ noUnit (.scrub 0 .l 2000000000 .clean) = true := by
  decide +kernel

theorem test_no_such_memory_unit : noUnit (.mapOut 0 (.channel 32) []) = true ∧ noUnit (.mapOut 0 (.package 4) []) = true := by
  decide +kernel

theorem test_no_such_page : noUnit (.biasSet 0 4096) = true ∧ noUnit (.birsp 4 0) = true := by decide +kernel

theorem test_no_such_register : noUnit (.registerWrite 0 0x10000 8 0) = true ∧ noUnit (.registerWrite 4 0 8 0) = true := by
  decide +kernel

/-! ## Command rings -/

/-- Ring 0 of port 0 with some fields changed. -/
def ring0 (g : Ring → Ring) : State := attached.modRing 0 0 g

/-- RING_CTRL with ENABLE and LOG2_ENTRIES. -/
def ctrlWord (enable log2 : Nat) : Word64 := BitVec.ofNat 64 (enable + log2 * 16)

/-- A descriptor of a NOP in position SEQ 0, PHASE 1. -/
def nop0 : RawDesc := ⟨0x00070000003F, 0, 0, 0, 0, 0, 0, 0x10000⟩

/-- A host write is the 32 B of a completion record, with CODE in byte 4 and DETAIL in byte 5 (R308). -/
def isRecord (code detail : Nat) : HostWrite → Bool
  | .completion _ _ d => decide (d.length = 32) && decide ((d[4]?.getD 0).toNat % 16 = code) && decide ((d[5]?.getD 0).toNat = detail)
  | _ => false

/-- The last write to the host of port 0 is a record with a code and a detail. -/
def answered (code detail : Nat) (t : State) : Bool := ((t.port 0).tx.getLast?.map (isRecord code detail)).getD false

/-- R294: a nudge of a sleeping ring adds 1 to its epoch and wakes it; FETCHING rings keep fetching. -/
theorem test_nudge :
    run (.nudge 0 0 4) (ring0 fun r => { r with state := 1 }) (fun t => (t.ring 0 0).state = 2 && (t.ring 0 0).nudges = 1) = true ∧
    run (.nudge 0 0 8) (ring0 fun r => { r with state := 2 }) (fun t => (t.ring 0 0).state = 2 && (t.ring 0 0).nudges = 1) = true ∧
    still (.nudge 0 8 4) attached = true := by decide +kernel

/-- R293: a host write to the doorbell line of a CXL port wakes a ring in AWAIT. -/
theorem test_snoop :
    let s := (ring0 fun r => { r with state := 3, lineHeld := true }).modPort 0 fun p => { p with cxl := true }
    run (.doorbellSnoop 0 0) s (fun t => (t.ring 0 0).state = 2 && (t.ring 0 0).lineHeld) = true ∧
    still (.doorbellSnoop 0 0) attached = true := by decide +kernel

/-- R289, R290: ENABLE starts an OFF ring at its smallest and largest size. -/
theorem test_ring_enable :
    run (.ringEnable 0 0 (ctrlWord 1 6)) (ring0 fun r => { r with state := 0, cplPos := 9 })
      (fun t => (t.ring 0 0).state = 2 && (t.ring 0 0).cplPos = 0) = true ∧
    run (.ringEnable 0 0 (ctrlWord 1 12)) (ring0 fun r => { r with state := 0 }) (fun t => (t.ring 0 0).log2 = 12) = true ∧
    run (.ringEnable 0 0 (ctrlWord 1 13)) (ring0 fun r => { r with state := 0 }) (fun t => (t.ring 0 0).state = 0) = true ∧
    still (.ringEnable 0 0 (ctrlWord 1 6)) (ring0 fun r => { r with state := 4 }) = true := by decide +kernel

/-- R290, R320: ENABLE 0 drains a ring, in AWAIT too; it is OFF when nothing is in flight or held. -/
theorem test_ring_drain :
    run (.ringDisable 0 0 0) (ring0 fun r => { r with state := 3 }) (fun t => (t.ring 0 0).state = 4) = true ∧
    run (.ringDrainEnd 0 0) (ring0 fun r => { r with state := 4, inflight := 0 }) (fun t => (t.ring 0 0).state = 0) = true ∧
    run (.ringDrainEnd 0 0) (ring0 fun r => { r with state := 4 }) (fun t => (t.ring 0 0).state = 4) = true ∧
    still (.descAccept 0 0) (ring0 fun r => { r with state := 4, fetched := [nop0] }) = true := by decide +kernel

/-- R292: the doorbell offers one descriptor; the whole ring; one more than the ring. -/
theorem test_doorbell_read :
    attached.fetches 0 = true ∧
    run (.doorbellRead 0 0 1) attached (fun t => (t.ring 0 0).fetchDue && (t.ring 0 0).tail = 1) = true ∧
    run (.doorbellRead 0 0 64) attached (fun t => (t.ring 0 0).fetchDue) = true ∧
    run (.doorbellRead 0 0 65) attached (fun t => (t.ring 0 0).badTail && (t.ring 0 0).state = 1) = true ∧
    run (.doorbellRead 0 0 0) attached (fun t => (t.ring 0 0).state = 1 && !(t.ring 0 0).badTail) = true := by decide +kernel

/-- R297, R300: a valid descriptor is kept; with none the ring tries again, and parks in AWAIT after the ninth. -/
theorem test_desc_fetch :
    let due := fun n => ring0 fun r => { r with fetchDue := true, tail := 1, tries := n }
    run (.descFetch 0 0 [(0, nop0)]) (due 0) (fun t => (t.ring 0 0).fetched = [nop0]) = true ∧
    run (.descFetch 0 0 [(0x5040, { nop0 with w7 := 0x10001 })])
      ((due 0).modRing 0 0 fun r => { r with descBase := 5, log2 := 6, fetchSeq := 1, tail := 2 }) (fun t => (t.ring 0 0).fetched.length = 1) = true ∧
    run (.descFetch 0 0 [(0, { nop0 with w7 := 0 })]) (due 7) (fun t => (t.ring 0 0).tries = 8 && (t.ring 0 0).state = 2) = true ∧
    run (.descFetch 0 0 [(0, { nop0 with w7 := 1 })]) (due 8) (fun t => (t.ring 0 0).state = 3 && (t.ring 0 0).awaits = 1) = true ∧
    run (.refetchTimer 0 0) (ring0 fun r => { r with tries := 1 }) (fun t => (t.ring 0 0).fetchDue) = true := by decide +kernel

/-- R296, R303: a NOP is accepted ready, the last of a fetch and one before others; an unknown opcode is refused with 0xF0. -/
theorem test_desc_accept :
    let s := fun l => ring0 fun r => { r with fetched := l, tail := 2 }
    (s [nop0]).hasPlace 0 0 = true ∧ (parseDesc nop0).formatOk false = true ∧
    run (.descAccept 0 0) (s [nop0]) (fun t => t.cmds.map (fun x => x.phase) = [.ready] && (t.ring 0 0).inflight = 2) = true ∧
    run (.descAccept 0 0) (s [nop0, nop0]) (fun t => (t.ring 0 0).fetched = [nop0] && (t.ring 0 0).fetchSeq = 1) = true ∧
    (parseDesc { nop0 with w0 := 0x0000000070000055 }).formatOk false = false ∧
    run (.descAccept 0 0) (s [{ nop0 with w0 := 0x55 }])
      (fun t => t.cmds.length = 0 && answered 1 0xF0 t) = true := by decide +kernel

/-- R299: with ring 1 served last and ring 2 able to go, ring 0 waits. -/
theorem test_rings_take_turns :
    let s := ((ring0 fun r => { r with fetched := [nop0] }).modRing 0 2 fun r => { r with state := 2, fetched := [nop0] }).modPort 0
      fun p => { p with lastRing := 1 }
    s.canAccept 0 2 = true ∧ still (.descAccept 0 0) s = true ∧
    run (.descAccept 0 2) s (fun t => t.cmds.length = 1 && (t.port 0).lastRing = 2) = true := by decide +kernel

/-- R308: the bytes of a record. -/
theorem test_record_bytes :
    let r : CplRecord := ⟨0x0201, 0x0403, 5, true, 6, 7, 8, 0x1817161514131211, 0x2221, 0x34333231⟩
    r.bytes true = [1, 2, 3, 4, 0x15, 6, 7, 8, 0x11, 0x12, 0x13, 0x14, 0x15, 0x16, 0x17, 0x18, 0x21, 0x22, 0, 0, 0x31, 0x32, 0x33, 0x34,
      0, 0, 0, 0, 0, 0, 0, 0x80] := by decide +kernel

/-- R303: a fence at its value, and past it with wrap-around; R302: a parameter block that cannot be read is refused with 0xF2. -/
theorem test_fence_and_block :
    let x := { cmd0 0x3F .fence with d := { desc0 with flags := 2, waitValue := 0xFFFFFFFF } }
    let s := fun v => (withCmd x).modPart 0 fun p => { p with fences := [(0, v)] }
    x.d.waits = true ∧ fencePast (0xFFFFFFFF#32) (0xFFFFFFFF#32) = true ∧ fencePast (0#32) (0xFFFFFFFF#32) = true ∧
    run (.fenceSatisfied 5) (s 0) (fun t => t.cmds.map (fun y => y.phase) = [.ready]) = true ∧
    run (.paramBlockRead 5) (withCmd (cmd0 0x3F .params)) (answered 1 0xF2) = true ∧
    (withCmd (cmd0 0x3F .params)).pinnedPage 0 0 = none := by decide +kernel

/-- R302: a parameter block with all operands 0 starts a NOP; one with a reserved word set is refused with 0xF0. -/
theorem test_param_block :
    let x := { cmd0 0x3F .params with d := { desc0 with flags := 1, op0 := 0x20 } }
    let s := mapped (withCmd x)
    (s.pinnedPage 0 0x20).isSome = true ∧
    run (.paramBlockRead 5) s (fun t => t.cmds.map (fun y => y.phase) = [.ready]) = true ∧
    run (.paramBlockRead 5) (s.pokeDev ⟨0, .h, 0x40000038⟩ [1]) (fun t => t.cmds = [] && answered 1 0xF0 t) = true := by decide +kernel

/-- R304, R305: the descriptor of a chain is read in device memory at depth 255; depth 256 is over the limit. -/
theorem test_chain_start :
    let s := fun d => mapped (ring0 fun r => { r with chains := [(0x40, 9, d)] })
    let w := ((s 255).pokeDev ⟨0, .h, 0x40000040⟩ [0x3F]).pokeDev ⟨0, .h, 0x40000078⟩ (leBytes 8 0x1000000)
    w.hasPlace 0 0 = true ∧ (w.pinnedPage 0 0x40).isSome = true ∧
    run (.chainStart 0 0) w (fun t => (t.ring 0 0).chains = [] && t.cmds.all fun y => y.chained && y.depth = 255) = true ∧
    (s 256).hasPlace 0 0 = true ∧ ((s 256).port 0).state = 2 := by decide +kernel

/-- R308, R309: the record has the code, and the command leaves its place; with the ring full it is held; a fence is signalled. -/
theorem test_completion :
    let s := withCmd { cmd0 0x38 .ready with d := { desc0 with flags := 4, signalValue := 3 } }
    let t := s.complete 5 0 0 8
    answered 0 0 t = true ∧ t.cmds = [] ∧ Sparse.read 0#32 (t.part 0).fences 0 = 3#32 ∧ (t.ring 0 0).inflight = 0 ∧
    (s.ring 0 0).hasSpace = true ∧
    (let u := s.modRing 0 0 fun r => { r with cplPos := 64 }
     (u.ring 0 0).hasSpace = false ∧ ((u.complete 5 0 0 8).ring 0 0).held.length = 1) := by decide +kernel

/-- R309: a held record is posted when CPL_HEAD moves, and waits else. -/
theorem test_held_record :
    let s := ((withCmd (cmd0 0x3F .busy)).modRing 0 0 fun r => { r with cplPos := 64 }).complete 5 0 0 8
    run (.completionSpaceRecheck 0 0 0x10000) s (fun t => (t.ring 0 0).held = [] && t.cmds = [] && answered 0 0 t) = true ∧
    run (.completionSpaceRecheck 0 0 0) s (fun t => (t.ring 0 0).held.length = 1 && t.cmds.length = 1) = true := by decide +kernel

/-! ## Commands of the rings -/

/-- Partition 0's tree maps the first 64 KiB to page 2 of tier H of frame 0, with WRITE and no PIN. -/
def mapped64 (s : State) : State :=
  (((s.pokeDev ⟨0, .h, 0⟩ (leBytes 8 0x10001)).pokeDev ⟨0, .h, 0x10000⟩ (leBytes 8 0x11001)).pokeDev ⟨0, .h, 0x11000⟩
    (leBytes 8 0x12001)).pokeDev ⟨0, .h, 0x12000⟩ (leBytes 8 0x20007)

/-- R301: FENCE_SIGNAL and NOP complete OK; R251: MEM_ADVISE keeps its advice. -/
theorem test_plain_commands :
    run (.fenceSignal 5) (withCmd (cmd0 0x38 .ready)) (answered 0 0) = true ∧
    run (.nop 5) (withCmd (cmd0 0x3F .ready)) (fun t => answered 0 0 t && decide (t.cmds = [])) = true ∧
    run (.memAdvise 5) (withCmd { cmd0 0x11 .ready with op0 := 0x10000, op1 := 0x10000, op2 := 0x50 })
      (fun t => answered 0 0 t && decide ((t.part 0).advice = [⟨0, false, 0, 0x10000, 0x10000, 1, 1⟩])) = true := by decide +kernel

/-- R274: TLB_INVALIDATE drops the pages of its range and no other; a range with a page of a pin table is refused. -/
theorem test_tlb_invalidate :
    let s := (withCmd { cmd0 0x12 .ready with op0 := 0x10000, op1 := 0x10000 }).modFrame 3 fun x =>
      { x with tlb := [(0, 0, 9), (0, 1, 9), (0, 2, 9), (1, 1, 9)] }
    run (.tlbInvalidate 5) s (fun t => answered 0 0 t && decide ((t.frame 3).tlb = [(0, 0, 9), (0, 2, 9), (1, 1, 9)])) = true ∧
    run (.tlbInvalidate 5) { s with firings := [{ firing0 with pins := [⟨1, ⟨0, .h, 0⟩, true⟩] }] } (answered 1 0x13) = true := by
  decide +kernel

/-- A fault of partition 0 with FAULT_ID 9 and no waiter. -/
def fault0 (kind : Nat) : FaultEntry := ⟨9, kind, 0, false, 0, 0, 0, 0, 0, [], false⟩

/-- The fault is open. -/
def withFault (kind : Nat) (s : State) : State := s.modFaults 0 fun q => { q with entries := [fault0 kind], nextId := 10 }

/-- R276, R284: FAULT_RESOLVE and FAULT_ABORT end a translation fault; a miss fault is the kiln's to resolve; no entry: 0x15. -/
theorem test_fault_commands :
    let s := fun op => withCmd { cmd0 op .ready with op0 := 9, op1 := 0x100 }
    run (.faultResolve 5) (withFault 1 (s 0x18)) (fun t => answered 0 0 t && decide ((t.part 0).faults.entries = [])) = true ∧
    run (.faultResolve 5) (withFault 5 (s 0x18)) (answered 1 0x15) = true ∧ run (.faultResolve 5) (s 0x18) (answered 1 0x15) = true ∧
    run (.faultAbort 5) (withFault 5 (s 0x19)) (fun t => answered 0 0 t && decide ((t.part 0).faults.entries = [])) = true ∧
    run (.faultAbort 5) (s 0x19) (answered 1 0x15) = true := by decide +kernel

/-- R284: FAULT_QUERY writes 16 B; the fault has no waiter. -/
theorem test_fault_query :
    let s := (mapped (withFault 1 (withCmd { cmd0 0x1A .ready with op0 := 9, op1 := 0x100 }))).pokeDev ⟨0, .h, 0x40000100⟩ [7]
    (s.outputPins 0 0x100 16).isSome = true ∧
    run (.faultQuery 5) s (fun t => answered 0 0 t && decide (t.devNat ⟨0, .h, 0x40000100⟩ 16 = 0)) = true := by decide +kernel

/-- R189: HIST_READ of unit 3 on frame 0 writes 288 B and completes with 1; with CLEAR and a rule on the unit, 0x17. -/
theorem test_hist_read :
    let x := fun w => { cmd0 0x20 .ready with op0 := 1, op1 := w, op2 := 0x100 }
    let f := { firing0 with img := { image0 with rules := [[0x100030000#64]] } }
    let s := fun w g => mapped { withCmd (x w) with firings := [g] }
    let one := 0x800000001#64
    let clear := 0x8000000800000001#64
    ((x one).histUnits f) = [(0, 3)] ∧ ((s one f).outputPins 0 0x100 288).isSome = true ∧
    run (.histRead 5) (s one f) (answered 0 0) = true ∧ run (.histRead 5) (s clear f) (answered 1 0x17) = true ∧ run (.histRead 5) (s clear firing0) (answered 0 0) = true := by decide +kernel

/-- R250: MEM_PREFETCH of one page to host memory: its leaf is BUSY, and its switch is free to run; with a pinned page 0x13,
with no place 0x14; a target in use leaves it waiting. -/
theorem test_mem_prefetch :
    let x := { cmd0 0x10 .ready with op1 := 0x10000 }
    let s := mapped64 (withCmd x)
    let m : PageMove := ⟨0, ⟨0, .h, 0x12000⟩, 0x10000, 0x20007, 2, 0, 1⟩
    s.rangePages 0 0 0x10000 = [(0, ⟨0, .h, 0x12000⟩, 0x10000, 0x20007)] ∧
    s.planMoves x [] (s.rangePages 0 0 0x10000) [1] = some [m] ∧ s.planMoves x [] (s.rangePages 0 0 0x10000) [] = none ∧
    run (.memPrefetch 5 [1]) s (fun t => (t.devNat ⟨0, .h, 0x12000⟩ 8 = 0x21007) && t.cmds.map (fun y => y.targets) = [[m]]) = true ∧
    s.hasRoom x [] (bySize (s.rangePages 0 0 0x10000)) = true ∧ still (.memPrefetch 5 []) s = true ∧
    run (.memPrefetch 5 [1]) (mapped64 (withCmd { x with op2 := 3 })) (answered 1 0x14) = true ∧
    run (.memPrefetch 5 [1]) { s with firings := [{ firing0 with pins := [⟨0, ⟨0, .h, 0⟩, true⟩] }] } (answered 1 0x13) = true ∧
    s.pageShared 0 0 0x10000 = [] ∧ s.hostReachable 0 = true ∧ (s.chargeMove 0 m).isOk = true := by decide +kernel

/-- R306: a command that expires at its fence has DETAIL 1; a kiln action that has not begun DETAIL 4. -/
theorem test_timeouts :
    run (.commandTimeout 5) (withCmd (cmd0 0x3F .fence)) (answered 2 1) = true ∧
    run (.commandTimeout 5) (withCmd (cmd0 0x3F .params)) (answered 2 1) = true ∧
    kilnAction 0x30 = true ∧ run (.commandTimeout 5) (withCmd (cmd0 0x30 .ready)) (answered 2 4) = true := by decide +kernel

/-- R102: TWIN_HANDOVER of a paired primary with its mirrors up begins; unpaired it is refused with 0x19. -/
theorem test_twin_handover :
    let s := withCmd (cmd0 0x30 .ready)
    let p : State := { s with twin := { s.twin with
      paired := true, role := 1, peerRole := 2, mirror := (List.range 20).map fun f => (f, 0) } }
    s.mayHandOver = false ∧ run (.twinHandover 5) s (answered 1 0x19) = true ∧ p.mayHandOver = true ∧
    run (.twinHandover 5) p (fun t => t.cmds.map (fun y => y.phase) = [.busy] && t.twin.handover.isSome) = true := by decide +kernel

/-! ## Scalar instructions of a bead -/

/-- Register `r` of context 0 of bead 0. -/
def reg0 (t : State) (r : BitVec 4) : Word64 := ((t.bead bead0).ctx 0).reg r

/-- Context 0 of bead 0. -/
def ctx0 (t : State) : Ctx := (t.bead bead0).ctx 0

/-- x2 = 2⁶⁴ − 1, x3 = 1. -/
def regs0 : State := issuing [(2, 0xFFFFFFFFFFFFFFFF#64), (3, 1#64)]

theorem test_issues : (prog [ctrlW 0 0 0 0 0] regs0).mayIssue bead0 0 (.ctrlNop bead0 0) = true ∧
    (prog [ctrlW 0 0 0 0 0] regs0).mayIssue bead0 0 (.endStep bead0 0) = false ∧ ctxOk bead0 0 = true := by decide +kernel

/-- R112: context 2, which issued last, waits for context 0's turn: the round robin goes on after it. -/
theorem test_round_robin :
    let x : Ctx := { Ctx.reset with ended := false }
    let s := (regs0.modFiring 1 fun f => { f with img := { f.img with contents := { f.img.contents with
      threads := [⟨bead0, 0, [0], none, none, none⟩, ⟨bead0, 2, [0], none, none, none⟩] } } }).setBead bead0
        { ((Bead.reset.setCtx 0 x).setCtx 2 x) with last := 2 }
    s.mayIssue bead0 0 (.ctrlNop bead0 0) = true ∧ s.ctxReady bead0 2 = true ∧ still (.ctrlNop bead0 2) s = true := by
  decide +kernel

/-- R117: ADD and SUB wrap; a write to x0 is ignored (R111). -/
theorem test_add_sub :
    issue [ctrlW 1 4 2 3 0] (.ctrlAdd bead0 0 4 2 3) regs0 (fun t => reg0 t 4 = 0 && (ctx0 t).idx = 1) = true ∧
    issue [ctrlW 3 4 0 3 0] (.sub bead0 0 4 0 3) regs0 (fun t => reg0 t 4 = 0xFFFFFFFFFFFFFFFF#64) = true ∧
    issue [ctrlW 1 0 2 2 0] (.ctrlAdd bead0 0 0 2 2) regs0 (fun t => reg0 t 0 = 0) = true := by decide +kernel

/-- R117: ADDI and LI sign-extend bit 41; LIH keeps bits 41:0. -/
theorem test_immediates :
    issue [ctrlW 2 4 3 0 0x3FFFFFFFFFE] (.addi bead0 0 4 3 0x3FFFFFFFFFE) regs0 (fun t => reg0 t 4 = 0xFFFFFFFFFFFFFFFF#64) = true ∧
    issue [ctrlW 9 4 0 0 0x20000000000] (.li bead0 0 4 0x20000000000) regs0 (fun t => reg0 t 4 = 0xFFFFFE0000000000#64) = true ∧
    issue [ctrlW 10 2 0 0 1] (.lih bead0 0 2 1) regs0 (fun t => reg0 t 2 = 0x7FFFFFFFFFF#64) = true := by decide +kernel

/-- R117: AND, OR, XOR of all ones and 1; shifts by 63. -/
theorem test_logic_shifts :
    issue [ctrlW 4 4 2 3 0] (.and bead0 0 4 2 3) regs0 (fun t => reg0 t 4 = 1) = true ∧
    issue [ctrlW 5 4 2 3 0] (.or bead0 0 4 2 3) regs0 (fun t => reg0 t 4 = 0xFFFFFFFFFFFFFFFF#64) = true ∧
    issue [ctrlW 6 4 2 3 0] (.xor bead0 0 4 2 3) regs0 (fun t => reg0 t 4 = 0xFFFFFFFFFFFFFFFE#64) = true ∧
    issue [ctrlW 7 4 3 0 63] (.shl bead0 0 4 3 63) regs0 (fun t => reg0 t 4 = 0x8000000000000000#64) = true ∧
    issue [ctrlW 8 4 2 0 63] (.shr bead0 0 4 2 63) regs0 (fun t => reg0 t 4 = 1) = true := by decide +kernel

/-- R117: LDS at the last 8 B of scratch, the low address bits dropped. -/
theorem test_lds :
    issue [ctrlW 11 4 0 0 0x3FFF] (.lds bead0 0 4 0 0x3FFF) (regs0.writeScratch bead0 0x3FF8 [1, 2, 0, 0, 0, 0, 0, 0x80])
      (fun t => reg0 t 4 = 0x8000000000000201#64) = true := by decide +kernel

/-- R117: branches taken and not taken; BLTU is unsigned. -/
theorem test_branches :
    issue [ctrlW 0x10 0 3 3 5] (.beq bead0 0 3 3 5) regs0 (fun t => (ctx0 t).idx = 6) = true ∧
    issue [ctrlW 0x10 0 2 3 5] (.beq bead0 0 2 3 5) regs0 (fun t => (ctx0 t).idx = 1) = true ∧
    issue [ctrlW 0x11 0 2 3 0xFFF] (.bne bead0 0 2 3 0xFFF) regs0 (fun t => (ctx0 t).idx = 4096) = true ∧
    issue [ctrlW 0x12 0 3 2 1] (.bltu bead0 0 3 2 1) regs0 (fun t => (ctx0 t).idx = 2) = true ∧
    issue [ctrlW 0x12 0 2 3 1] (.bltu bead0 0 2 3 1) regs0 (fun t => (ctx0 t).idx = 1) = true ∧
    issue [ctrlW 0 0 0 0 0] (.ctrlNop bead0 0) regs0 (fun t => (ctx0 t).idx = 1) = true ∧
    issue [ctrlW 0x1F 0 0 0 0] (.endStep bead0 0) regs0 (fun t => (ctx0 t).ended && !t.issues bead0 0) = true := by decide +kernel

/-- R117: a loop of 2 instructions run 3 times, and one run 0 times. -/
theorem test_loop :
    issue [ctrlW 0x18 0 0 0 0x3002] (.loop bead0 0 0x3002) regs0
      (fun t => times 6 Ctx.next (ctx0 t) = { ctx0 regs0 with idx := 3 }) = true ∧
    issue [ctrlW 0x18 0 0 0 0x0002] (.loop bead0 0 0x0002) regs0 (fun t => (ctx0 t).idx = 3) = true := by decide +kernel

/-- Counter 3 of bead 0 holds `n`. -/
def counter3 (n : BitVec 16) : State := regs0.setBead bead0 { regs0.bead bead0 with counters := [(3, n)] }

/-- WAIT for counter 3 at 2 with SCOPE 0 (R119, R255). -/
def wait32 : Word64 := BitVec.ofNat 64 (1 * 2 ^ 60 + 3 * 2 ^ 53 + 2 * 2 ^ 37)

/-- R119: WAIT goes on at its value, and holds one below it; REST stops the fillers. -/
theorem test_wait_rest :
    issue [wait32] (.wait bead0 0 3 2 0) (counter3 2) (fun t => t.issues bead0 0) = true ∧
    issue [wait32] (.wait bead0 0 3 2 0) (counter3 1)
      (fun t => !t.issues bead0 0 && decide ((ctx0 t).waiting = some ⟨3, 2, 0⟩)) = true ∧
    issue [ctrlW 0x1E 0 0 0 0] (.rest bead0 0) (regs0.setBead bead0 { regs0.bead bead0 with filler := [(0, 64)] })
      (fun t => (t.bead bead0).filler = []) = true := by decide +kernel

/-- R118, R119: the increment that reaches VALUE releases; at 0xFFFF the counter stays. -/
theorem test_increment :
    let held := (counter3 1).setBead bead0 (((counter3 1).bead bead0).setCtx 1 { Ctx.reset with waiting := some ⟨3, 2, 0⟩ })
    let t := held.bump bead0 3
    (t.bead bead0).counter 3 = 2 ∧ ((t.bead bead0).ctx 1).waiting = none ∧
    (let u := (counter3 0xFFFF).bump bead0 3
     (u.bead bead0).counter 3 = 0xFFFF ∧ (u.frame 0).counters.evtSat = 1) := by decide +kernel

/-- A SIGNAL to counter 3, the bead in x2 (R119, R255). -/
def signalW (scope : Nat) : Word64 := BitVec.ofNat 64 (1 * 2 ^ 60 + 1 * 2 ^ 58 + 3 * 2 ^ 53 + 2 * 2 ^ 33 + scope * 2 ^ 30)

/-- R119: SIGNAL to bead 7 of the rod. R263: with SCOPE 4 in a pair with nothing to wait for it goes to the twin at once. -/
theorem test_signal :
    let s := issuing [(2, 0x70000#64)]
    (s.stepOf bead0).isSome = true ∧ BeadId.ofRef 0x70000 = ⟨0, 0, 0, 7⟩ ∧ firing0.rods.contains rod0 = true ∧
    issue [signalW 0] (.signal bead0 0 3 2 0) s (fun t => (t.bead ⟨0, 0, 0, 7⟩).counter 3 = 1 && (ctx0 t).idx = 1) = true ∧
    (let u := { s with twin := { s.twin with paired := true } }
     u.twin.paired = true ∧ issue [signalW 4] (.signal bead0 0 3 2 4) u (fun t => (ctx0 t).idx = 1) = true) := by decide +kernel

/-- R119, R257: a release with writes ordered before it keeps them on its target's counter. -/
theorem test_signal_orders :
    let k : Known := ⟨[(0, 5)], []⟩
    let s := (issuing []).setBead bead0 (Bead.reset.setCtx 0 { Ctx.reset with regs := [(2, 0x70000#64)], ended := false, known := k })
    issue [signalW 0] (.signal bead0 0 3 2 0) s
      (fun t => (t.bead ⟨0, 0, 0, 7⟩).releases = [(3, ⟨1, 0, bead0, k⟩)]) = true := by decide +kernel

/-! ## Matrix arrays and coils -/

/-- INT8, array 0, bank 0, one k-step, A at x2, W at x3, event 4. -/
def mma0 : MmaFields := ⟨2, false, 1, 0, false, 0, false, false, false, 0, 0, 2, 2, 3, 4, true⟩

/-- Its word (R130), with CLEAR or without. -/
def mmaW (clear : Nat) : Word64 := BitVec.ofNat 64
  (2 * 2 ^ 60 + 2 * 2 ^ 57 + 1 * 2 ^ 54 + clear * 2 ^ 52 + 2 * 2 ^ 30 + 2 * 2 ^ 26 + 3 * 2 ^ 22 + 4 * 2 ^ 17 + 1 * 2 ^ 16)

/-- Row 0 of A holds −1 at element 0, column 0 of W holds 3 at element 0; x2 = 0, x3 = 64. -/
def mmaState : State := ((issuing [(3, 64#64)]).writeScratch bead0 0 [0xFF]).writeScratch bead0 64 [3]

/-- R129, R131: an INT8 k-step adds −1 · 3 to cell (0, 0); with CLEAR the old value is lost. -/
theorem test_mma :
    let s := mmaState.setBead bead0 { mmaState.bead bead0 with acc := [(accKey 0 0 0 0, 5)] }
    (s.chargeFiring firing0 0 3 (mmaUnits mma0)).isSome = true ∧ (s.bead bead0).mmas = [] ∧ mmaArray mma0 0 = true ∧
    issue [mmaW 0] (.mma bead0 0 mma0) s (fun t => (t.bead bead0).cell 0 0 0 0 = 2) = true ∧
    issue [mmaW 1] (.mma bead0 0 { mma0 with clear := true }) s (fun t => (t.bead bead0).cell 0 0 0 0 = 0xFFFFFFFD#32) = true := by
  decide +kernel

/-- R186: INT32 accumulation saturates at both ends. -/
theorem test_cell_saturates :
    cellStep 2 2 0x7FFFFFFF [(0x80, 0x80)] = 0x7FFFFFFF ∧ cellStep 2 2 0x80000000 [(0x80, 0x7F)] = 0x80000000 ∧
    cellStep 4 4 0 [(8, 8), (8, 7)] = 8 := by decide +kernel

/-- R139: a second MMA queues, a third holds its context; R133: a finished MMA gives its event and starts the fillers. -/
theorem test_mma_queue :
    let job : MmaJob := ⟨mma0, 0, 0, 64, 1, 0⟩
    let s := fun l => prog [mmaW 0] (mmaState.setBead bead0 { mmaState.bead bead0 with mmas := l })
    run (.mma bead0 0 mma0) (s [job]) (fun t => (t.bead bead0).mmas.length = 2) = true ∧
    still (.mma bead0 0 mma0) (s [job, job]) = true ∧
    run (.mmaComplete bead0) (s [job]) (fun t => (t.bead bead0).mmas = [] && (t.bead bead0).counter 4 = 1 &&
      (t.bead bead0).filler = [(0, 64), (1, 64)]) = true ∧
    run (.fillerExpire bead0 1) ((s []).setBead bead0 { (s []).bead bead0 with filler := [(0, 64), (1, 64)] })
      (fun t => (t.bead bead0).filler = [(0, 64)]) = true := by decide +kernel

/-- Coil 6: a chain from the rod pool of bead 0 to bead 1, 64 B a pass, one flit retained, port 0. -/
def coil0 : CoilEntry := ⟨6, 0, 1, 0, 0, 64, [⟨bead0, 0, 0⟩, ⟨⟨0, 0, 0, 1⟩, 0, 1⟩]⟩

def coilFiring : Firing := { firing0 with img := { image0 with coils := [coil0] }, step := some step0 }

/-- The firing of the coil in a step; context 0 of bead 0 issues. -/
def coilState : State := (withFiring coilFiring).setBead bead0 (Bead.reset.setCtx 0 { Ctx.reset with ended := false })

/-- INJECT and LAND of coil 6: one flit, offset in x2, event 4. -/
def coilOp : CoilFields := ⟨6, 2, 1, 4, true⟩

/-- The word of COIL with these fields, INJECT (0) or LAND (1) (R144). -/
def coilW (op : Nat) : Word64 := BitVec.ofNat 64 (6 * 2 ^ 60 + op * 2 ^ 58 + 6 * 2 ^ 46 + 2 * 2 ^ 42 + 1 * 2 ^ 26 + 4 * 2 ^ 21 + 1 * 2 ^ 20)

/-- R142: INJECT puts the source's flit into the pass; the next bead accepts it and retains it. -/
theorem test_coil_inject_and_accept :
    coil0.indexOf bead0 = some 0 ∧ (coilState.stepOf bead0).isSome = true ∧ (coilState.chargeFiring coilFiring 0 2 1).isSome = true ∧
    issue [coilW 0] (.coilInject bead0 0 coilOp) coilState (fun t => run (.coilFlitAccept 1 6 0 0) t fun v =>
      run (.coilFlitAccept 1 6 0 1) v fun u => ((u.bead ⟨0, 0, 0, 1⟩).port 0).flits.length = 1) = true := by decide +kernel

/-- R142: the head holds its second flit back until the bead behind it has the first. -/
theorem test_coil_slowest_bead :
    let f : Firing := { coilFiring with
      img := { image0 with coils := [{ coil0 with passBytes := 128 }] }
      coils := [⟨6, [(0, [List.replicate 64 9, List.replicate 64 8])], [(0, 1)]⟩] }
    (f.pass 6).got 0 0 = 1 ∧ (f.pass 6).got 0 1 = 0 ∧ still (.coilFlitAccept 1 6 0 0) (withFiring f) = true := by decide +kernel

/-- A retained flit of 64 bytes 9. -/
def flit9 : CoilFlit := ⟨List.replicate 64 9, 0⟩

/-- R144: LAND copies the flit to the offset in x2, up to the end of scratch; its completion counts event 4. -/
theorem test_coil_land :
    let at0 := fun off : Word64 => ((withFiring coilFiring).setBead bead0 ((Bead.reset.setCtx 0
      { Ctx.reset with ended := false, regs := [(2, off)] }).setPort 0 { CoilPort.reset with flits := [flit9] }))
    issue [coilW 1] (.coilLand bead0 0 coilOp) (at0 16320) (fun t => t.scratchNat bead0 16383 1 = 9 && ((t.bead bead0).port 0).flits = []) = true ∧
    issue [coilW 1] (.coilLand bead0 0 coilOp) (at0 64) (fun t =>
      t.scratchNat bead0 127 1 = 9 && run (.coilComplete bead0 1) t fun u => (u.bead bead0).counter 4 = 1) = true := by
  decide +kernel

/-- R144: an INJECT whose only flit the next bead has accepted completes. -/
theorem test_inject_completes :
    let s := coilState.modFiring 1 fun f => { f with coils := [⟨6, [(0, [flit9.data])], [(1, 1)]⟩] }
    let t := s.setBead bead0 { s.bead bead0 with injects := [⟨6, 4, true⟩] }
    run (.coilComplete bead0 0) t (fun u => (u.bead bead0).injects = [] && (u.bead bead0).counter 4 = 1) = true := by decide +kernel

/-! ## The vector engine -/

/-- One element: A is the scalar in x3, B the immediate, C the scalar in x4; the result goes to the stream in x2. -/
def vec0 (imm : Word32) : VecFields := ⟨0, 3, 2, 3, 2, 3, 0, 4, 0, 0, false, false, false, imm, 0, 4, true, 0⟩

/-- The same without C, and without B and C, for operations that list fewer operands. -/
def vecAB (imm : Word32) : VecFields := { vec0 imm with csel := 0, c := 0 }

def vecA (imm : Word32) : VecFields := { vecAB imm with bsel := 0 }

/-- The two words of a VEC instruction (R151, R152). -/
def vecW (op clen : Nat) (v : VecFields) : List Word64 :=
  [BitVec.ofNat 64 (4 * 2 ^ 60 + op * 2 ^ 52 + v.dsel.toNat * 2 ^ 49 + v.asel.toNat * 2 ^ 46 + v.bsel.toNat * 2 ^ 43 + v.csel.toNat * 2 ^ 40 +
      v.dst.toNat * 2 ^ 36 + v.a.toNat * 2 ^ 32 + v.b.toNat * 2 ^ 28 + v.c.toNat * 2 ^ 24 + v.n.toNat * 2 ^ 11),
    BitVec.ofNat 64 (v.imm.toNat * 2 ^ 32 + v.aux.toNat * 2 ^ 16 + v.evt.toNat * 2 ^ 11 + 1 * 2 ^ 10 + clen * 2 ^ 8)]

/-- x2 names offset 0x100 of scratch in a format of 4 B, x3 and x4 are scalars. -/
def vecState (fmt a c : Nat) : State :=
  issuing [(2, BitVec.ofNat 64 (fmt * 2 ^ 32 + 0x10100)), (3, BitVec.ofNat 64 a), (4, BitVec.ofNat 64 c)]

/-- The instruction leaves `w` at its destination. -/
def stores (op : Nat) (i : VecFields → Instr) (v : VecFields) (fmt a c w : Nat) : Bool :=
  issue (vecW op 0 v) (i v) (vecState fmt a c) fun t => t.scratchNat bead0 0x100 4 = w

/-- The instruction may issue, its units can be charged and its banks are free. -/
theorem test_stage_ready :
    let v := vecAB 0
    let s := prog (vecW 1 0 v) (vecState 7 0 0)
    s.mayIssue bead0 0 (.vadd bead0 0 v) = true ∧ s.clenAt bead0 0 = 0 ∧ (s.stepOf bead0).isSome = true ∧
    (s.chargeFiring { firing0 with step := some step0 } 0 4 1).isSome = true ∧
    (s.bead bead0).bankFree ⟨1, v, 0, (s.bead bead0).ctx 0, 1⟩ = true := by decide +kernel

/-- R157: FP32 1 + 2, 1 − 2, 1 · 2, 1 · 2 + 1; INT32 addition saturates. -/
theorem test_vec_arithmetic :
    stores 0x01 (.vadd bead0 0) (vecAB 0x40000000) 7 0x3F800000 0 0x40400000 = true ∧
    stores 0x02 (.vsub bead0 0) (vecAB 0x40000000) 7 0x3F800000 0 0xBF800000 = true ∧
    stores 0x03 (.vmul bead0 0) (vecAB 0x40000000) 7 0x3F800000 0 0x40000000 = true ∧
    stores 0x04 (.vfma bead0 0) (vec0 0x40000000) 7 0x3F800000 0x3F800000 0x40400000 = true ∧
    stores 0x01 (.vadd bead0 0) (vecAB 1) 8 0x7FFFFFFF 0 0x7FFFFFFF = true := by decide +kernel

/-- R156: the larger and the smaller, by sign in INT32; magnitude, negation, copy. -/
theorem test_vec_order :
    stores 0x05 (.vmax bead0 0) (vecAB 0xFFFFFFFF) 8 2 0 2 = true ∧ stores 0x06 (.vmin bead0 0) (vecAB 0xFFFFFFFF) 8 2 0 0xFFFFFFFF = true ∧
    stores 0x05 (.vmax bead0 0) (vecAB 0x7FC00000) 7 0x3F800000 0 0x3F800000 = true ∧
    stores 0x07 (.vabs bead0 0) (vecA 0) 7 0xBF800000 0 0x3F800000 = true ∧ stores 0x08 (.vneg bead0 0) (vecA 0) 7 0 0 0x80000000 = true ∧
    stores 0x09 (.vmov bead0 0) (vecA 0) 7 0x42280000 0 0x42280000 = true := by decide +kernel

/-- R156: VSEL by a scalar C; the compares write a bit. -/
theorem test_vec_select :
    stores 0x10 (.vsel bead0 0) (vec0 0x40000000) 7 0x3F800000 1 0x3F800000 = true ∧
    stores 0x10 (.vsel bead0 0) (vec0 0x40000000) 7 0x3F800000 0 0x40000000 = true ∧
    stores 0x11 (.vcmpgt bead0 0) (vecAB 0x40000000) 11 0x40400000 0 1 = true ∧
    stores 0x12 (.vcmpge bead0 0) (vecAB 0x40000000) 11 0x40000000 0 1 = true ∧
    stores 0x13 (.vcmpeq bead0 0) (vecAB 0x7FC00000) 11 0x7FC00000 0 0 = true := by decide +kernel

/-- R158, R171: 6 ÷ 2 leaves no exception; 1 ÷ 0 raises one and gives infinity; 1 ÷ √0 the same. -/
theorem test_vec_divide :
    (divide (.fin false 1 0) (.fin false 0 0) 0).1 = .inf false ∧ (rsqrt (.fin true 1 0) 0).1 = .nan ∧
    stores 0x0A (.vdiv bead0 0) (vecAB 0) 7 0x3F800000 0 0x7F800000 = true ∧ stores 0x0B (.vrsqrt bead0 0) (vecA 0) 7 0 0 0x7F800000 = true ∧
    issue (vecW 0x0A 0 (vecAB 0)) (.vdiv bead0 0 (vecAB 0)) (vecState 7 0x3F800000 0) (fun t => (t.bead bead0).exc ≠ 0) = true := by decide +kernel

/-- R156: the functions at 0 (their results may be 2 units off, which no closed test can fix). -/
theorem test_vec_functions :
    (expVal .zero).eq (.fin false 1 0) = true ∧ (sigmVal .zero).eq (.fin false 1 (-1)) = true ∧
    (tanhVal .zero).isZero = true ∧ (geluVal .zero).1.isZero = true ∧ (stepUlps (.fin false 1 0) 0).eq (.fin false 1 0) = true := by
  decide +kernel

/-- R156, R178: VDQ of 1 with glaze byte 0x78 and row scale 0x7F00, both 1, is 1; R168: a group of one element, INT32. -/
theorem test_vec_rows_and_reductions :
    stores 0x18 (.vdq bead0 0) (vec0 0x78) 7 0x3F800000 0x7F00 0x3F800000 = true ∧
    stores 0x20 (.vrsum bead0 0) (vecA 0) 8 7 0 7 = true ∧ stores 0x21 (.vrmax bead0 0) (vecA 0) 8 0x80000000 0 0x80000000 = true ∧
    stores 0x22 (.vrmin bead0 0) (vecA 0) 8 7 0 7 = true ∧ stores 0x23 (.vramax bead0 0) (vecA 0) 8 0xFFFFFFFE 0 2 = true := by decide +kernel

/-- R156: VIDX takes its index from B, here a scalar in x4: index 0 in range, index 1 not, which raises INDEX. -/
theorem test_vidx :
    let v := { vecAB 1 with bsel := 3, b := 4 }
    stores 0x28 (.vidx bead0 0) v 7 0x40000000 0 0x40000000 = true ∧
    issue (vecW 0x28 0 v) (.vidx bead0 0 v) (vecState 7 0x40000000 1) (fun t => t.scratchNat bead0 0x100 4 = 0 && (t.bead bead0).exc ≠ 0) = true := by
  decide +kernel

/-- R160: VQB of 32 zeros; R159: VDQR of one record with NULL gives 0, and of one that is not whole inside scratch too, with
ADDR (R171). -/
theorem test_vqb_vdqr :
    let q := { vec0 0x200 with bsel := 0, n := 31 }
    let d := { vecA 32 with asel := 0, n := 31 }
    issue (vecW 0x1A 0 q) (.vqb bead0 0 q) (vecState 0 0 0x7F00) (fun t => (ctx0 t).idx = 1) = true ∧
    (let s := (vecState 7 0x0C00010200 0).writeScratch bead0 0x200 [0, 0, 0x20, 0, 0, 0, 0, 0]
     issue (vecW 0x19 0 d) (.vdqr bead0 0 d) s (fun t => t.scratchNat bead0 0x100 4 = 0 && (t.bead bead0).exc = 0) = true) ∧
    issue (vecW 0x19 0 d) (.vdqr bead0 0 d) (vecState 7 0x0C00013FF8 0)
      (fun t => t.scratchNat bead0 0x100 4 = 0 && (t.bead bead0).exc ≠ 0) = true := by decide +kernel

/-- Unit 0 is enabled on frame 0, with LOW 0 (R187). -/
def histOn (s : State) : State := s.modFiring 1 fun f => { f with img := { f.img with contents := { f.img.contents with histTable := [(0, 0x100)] } } }

/-- R169: VCHK counts the element outside its bounds 2 and 3; R170: VHIST adds it to a bin of unit 0, where the unit is enabled (R187);
R171: VSTAT reads and clears the exception word. -/
theorem test_vec_check_hist_stat :
    let h := vecA 0
    let k := { vecA 0 with asel := 0, a := 0 }
    issue (vecW 0x30 0 (vec0 0x40000000)) (.vchk bead0 0 (vec0 0x40000000)) (vecState 8 0x3F800000 0x40400000)
      (fun t => t.scratchNat bead0 0x100 4 = 1) = true ∧
    issue (vecW 0x30 0 (vec0 0x3F000000)) (.vchk bead0 0 (vec0 0x3F000000)) (vecState 8 0x3F800000 0x40400000)
      (fun t => t.scratchNat bead0 0x100 4 = 0) = true ∧
    issue (vecW 0x31 0 h) (.vhist bead0 0 h) (histOn (vecState 7 0x3F800000 0))
      (fun t => ((List.range 32).map fun k => Sparse.read 0 (t.bead bead0).hist k).sum = 1) = true ∧
    issue (vecW 0x31 0 h) (.vhist bead0 0 h) (vecState 7 0x3F800000 0) (fun t => (t.bead bead0).hist = []) = true ∧
    (let s := vecState 7 0 0
     issue (vecW 0x3F 0 k) (.vstat bead0 0 k) (s.setBead bead0 { s.bead bead0 with exc := 5 })
      (fun t => t.scratchNat bead0 0x100 8 = 5 && (t.bead bead0).exc = 0) = true) := by decide +kernel

/-- Two stages of 1 element: a copy of x3 to buffer 0, and a copy of that to the stream in x2. -/
def stage0 : VecFields := { vecA 0 with dsel := 4 }

def stage1 : VecFields := { vecA 0 with asel := 4, a := 0 }

/-- R139, R147, R163: the head reserves 2 entries and nothing runs; its second stage joins, and the chain runs; with 3 entries taken
the head waits. -/
theorem test_vec_chain :
    let ws := vecW 9 1 stage0 ++ vecW 9 0 stage1
    let s := prog ws (vecState 7 0x42280000 0)
    let full := s.setBead bead0 { s.bead bead0 with vec := { VecEngine.reset with done := [⟨4, true⟩, ⟨4, true⟩, ⟨4, true⟩] } }
    s.mayIssue bead0 0 (.vmov bead0 0 stage0) = true ∧
    run (.vmov bead0 0 stage0) s (fun t => (t.bead bead0).vec.entries = 2 && t.scratchNat bead0 0x100 4 = 0 &&
      t.mayIssue bead0 0 (.vmov bead0 0 stage1) && run (.vmov bead0 0 stage1) t fun u => u.scratchNat bead0 0x100 4 = 0x42280000 &&
        (u.bead bead0).vec.entries = 2 && run (.vecComplete bead0) u fun w =>
          (w.bead bead0).vec.entries = 1 && (w.bead bead0).counter 4 = 1) = true ∧
    still (.vmov bead0 0 stage0) full = true := by decide +kernel

/-- R163: a chain that is whole and waits starts with VEC_CHAIN_START; one with a stage to come does not. -/
theorem test_vec_chain_start :
    let x := { Ctx.reset with regs := [(2, 0x700010100#64), (3, 0x42280000#64)] }
    let s := fun n => (vecState 7 0 0).setBead bead0 { Bead.reset with vec := { VecEngine.reset with chains := [⟨0, n, [⟨9, vecA 0, 0, x, 1⟩]⟩] } }
    run (.vecChainStart bead0 0 1) (s 0) (fun t => (t.bead bead0).vec.chains = [] && t.scratchNat bead0 0x100 4 = 0x42280000) = true ∧
    still (.vecChainStart bead0 0 1) (s 1) = true ∧ still (.vecChainStart bead0 1 1) (s 0) = true ∧
    still (.vecChainStart bead0 0 2) (s 0) = true := by decide +kernel

/-- R166: a masked element keeps its bytes, or becomes 0 with MZERO, at the end of scratch too. -/
theorem test_stream_write :
    let s := regs0.writeScratch bead0 16380 [1, 2, 3, 4]
    (s.writeStream bead0 ⟨16376, false, 1, 7⟩ false 0 [some (.fp 0x3F800000), none]).1.scratchNat bead0 16380 4 = 0x04030201 ∧
    (s.writeStream bead0 ⟨16376, false, 1, 8⟩ true 0 [some (.int (-1)), none]).1.scratchNat bead0 16376 8 = 0xFFFFFFFF := by
  decide +kernel

/-- R182, worked example: the glaze code for 3.0 with row scale 1.0 in the 8-bit class is 0x3E; no code holds 2²⁰⁰. -/
theorem test_glaze_code :
    chooseGlaze (.fp e4m3F) 0x7F00 (.fin false 3 0) = 0x3E ∧ chooseGlaze (.fp e4m3F) 0x7F00 (.fin false 1 200) = 0xFF := by decide +kernel

/-! ## Movers -/

/-- MV on a channel, from own scratch at x2 to own scratch at x3, length x4, event 4. -/
def mv0 (ch : BitVec 2) (dstSpace : BitVec 2) : MvFields := ⟨ch, 2, 3, 4, 0, dstSpace, 4, true, 0⟩

/-- x2 = 16, x3 = 64, x4 = 8. -/
def mvState : State := issuing [(2, 16#64), (3, 64#64), (4, 8#64)]

/-- A copy of 8 B within scratch. -/
def copy0 : MvReq := ⟨1, bead0, .copy [⟨.scratch bead0 16, .scratch bead0 64, 8, none⟩], 4, true, false, Known.none⟩

/-- The word of that MV (R125). -/
def mvW (ch dstSpace : Nat) : Word64 := BitVec.ofNat 64
  (5 * 2 ^ 60 + ch * 2 ^ 58 + (if ch = 3 then 0 else 2 * 2 ^ 54 + 3 * 2 ^ 50 + 4 * 2 ^ 46 + dstSpace * 2 ^ 42) + 4 * 2 ^ 37 + 1 * 2 ^ 36)

/-- A start of mover program entry 0 on channel 3, event 4. -/
def mv3 : MvFields := ⟨3, 0, 0, 0, 0, 0, 4, true, 0⟩

/-- R125, R126, R139: an MV queues its request; one to device memory outside the PIN regions is dead and counted; the ninth of a
bead waits; channel 3 queues its program entry. -/
theorem test_mv :
    issue [mvW 2 0] (.mv bead0 0 (mv0 2 0)) mvState (fun t => (t.chan rod0 2).reqs = [copy0] && (t.bead bead0).mvs = 1) = true ∧
    issue [mvW 0 2] (.mv bead0 0 (mv0 0 2)) mvState (fun t =>
      (t.chan rod0 0).reqs.map (fun q => q.dead) = [true] && (t.frame 0).counters.pinErrs = 1) = true ∧
    still (.mv bead0 0 (mv0 0 0)) (prog [mvW 0 0] (mvState.setBead bead0 { mvState.bead bead0 with mvs := 8 })) = true ∧
    still (.mv bead0 0 mv3) (prog [mvW 3 0] (mvState.setChan rod0 3 ⟨List.replicate 16 copy0, false⟩)) = true ∧
    issue [mvW 3 0] (.mv bead0 0 mv3) mvState (fun t => (t.chan rod0 3).reqs.map (fun q => q.kind) = [.copy []]) = true := by
  decide +kernel

/-- R118, R125: the oldest request moves its bytes and counts event 4. -/
theorem test_mv_complete :
    let s := ((mvState.writeScratch bead0 16 [1, 2, 3, 4, 5, 6, 7, 8]).setChan rod0 1 ⟨[copy0], false⟩).setBead bead0
      { mvState.bead bead0 with mvs := 1 }
    s.awaits rod0 = false ∧ (s.firing 1).isSome = true ∧
    (s.chargeCopy { firing0 with step := some step0 } 0 8 0 0).isOk = true ∧
    run (.mvComplete rod0 1 [] []) s (fun t => t.scratchNat bead0 64 8 = 0x0807060504030201 &&
      (t.chan rod0 1).reqs = [] && (t.bead bead0).counter 4 = 1 && (t.bead bead0).mvs = 0) = true := by decide +kernel

/-- R240, R241: a corrected error on a burst that is read counts; an uncorrectable one poisons it; one on another burst does nothing. -/
theorem test_reads_find_errors :
    let u : Unit64 := ⟨3, .l, 5⟩
    let s := State.reset
    s.badBurst u = false ∧ ((s.findErrors [u] [⟨3, .l, 5, .correctable⟩]).frame 3).counters.memCe = 1 ∧
    (s.findErrors [u] [⟨3, .l, 5, .uncorrectable⟩]).badBurst u = true ∧ s.findErrors [] [⟨3, .l, 5, .uncorrectable⟩] = s := by
  decide +kernel

/-! ## Rows, gathers and promotions -/

/-- Table 3: two rows of one block, in one shard on frame 0; the directory lies at 0x1000, the counters at 0x2000, DEFAULT at
0x3000, all in the first page of tier H. -/
def table0 : Table where
  desc := ⟨3, 32, 2, 1, 0, 0, 0x3F, 0, 0⟩
  shards := [⟨0, 2, 2, 0x1000, 0x2000, 0x3000⟩]
  generation := 1
  owner := 0
  pages := [⟨0, ⟨0, .h, 0⟩, true⟩]

/-- The entry of row 1: resident in tier H, 16-bit class, slot 0x400, row scale 1.0. Row 0 is not resident. -/
def entry1 : DirEntry := ⟨true, .h, 0, 0x400, 0x7F00⟩

/-- Table 3 on a state, with row 1's entry; the first four page frames of each tier are mirrored. -/
def withTable (s : State) : State :=
  (s.modFrame 0 fun x => { x with tables := [(3, table0)], mirrored := [⟨0, .h, 0, 4, 0⟩, ⟨1, .l, 0, 4, 0⟩] }).pokeDev ⟨0, .h, 0x1008⟩ (leBytes 8 entry1.toNat)

/-- A list of firing 1 over table 3, one row to bead 0's scratch at 0x200, done counter 5. -/
def list0 (row : Word32) : IndexList := ⟨1, 0, 3, [row], [bead0], 1, 0x200, 80, 0, 5⟩

/-- That list as a unit holds it, number 7. -/
def held0 (row : Word32) : ListState := ⟨list0 row, 7, true, 0, none, [], [], []⟩

/-- A gather unit of frame 0 serves the list for firing 1 in its step. -/
def gathering (mode : Nat) (row : Word32) : State :=
  withTable ((withFiring { firing0 with img := { image0 with mode := mode }, step := some step0 }).setGather 0 2
    ⟨[held0 row], [], 8, []⟩)

/-- R56: the entry's bytes; R55: a row of one block is written and read. -/
theorem test_row_image :
    DirEntry.ofNat entry1.toNat = entry1 ∧ entry1.toNat = 0x007F000000040001 ∧
    (let img : RowImage := ⟨.c16, 0x7F00, [0x78], List.replicate 64 3⟩
     (State.reset.writeRow ⟨0, .h, 0x400⟩ img).readRow ⟨0, .h, 0x400⟩ 0 1 0x7F00 = img) := by decide +kernel

/-- R68, R69, R72: what a position comes to for a null index, one past ROWS, a resident row, one that is not resident. -/
theorem test_outlook :
    let look := fun mode row => (gathering mode row).outlook 0 [] (held0 row) mode 0
    ((gathering 0 0).tableAt 0 3).isSome = true ∧ (table0.rowAt 1).isSome = true ∧ (table0.rowAt 2).isSome = false ∧
    (look 0 0xFFFFFFFF).map (fun o => o.units) = some 4 ∧
    (look 0 2).map (fun o => (o.bump, o.promote)) = some (false, false) ∧
    (look 0 1).map (fun o => (o.bump, o.promote, o.record.isSome)) = some (true, false, true) ∧
    (look 0 0).map (fun o => (o.bump, o.promote, o.record.isSome)) = some (true, true, true) ∧
    (look 1 0).map (fun o => (o.bump, o.promote, o.record.isSome)) = some (true, false, false) := by decide +kernel

/-- R65: a row in the buffer comes again with REPEAT. -/
theorem test_outlook_repeat :
    ((gathering 0 1).outlook 0 [⟨7, 0, 1, leBytes 8 0x7F00⟩] { held0 1 with l := { list0 1 with indices := [1, 1] } } 0 1).map (fun o => o.record) =
      some (some (leBytes 8 0x107F00)) := by decide +kernel

/-- R60, R61: row 1 is delivered, its counter rises, and the bead has its done handshake; nothing is left of the list. -/
theorem test_gather_position :
    run (.gatherPosition 0 2 []) ((gathering 0 1).pokeDev ⟨0, .h, 0x10000⟩ [9]) (fun t =>
      t.scratchNat bead0 0x200 8 = 0x0000000100007F00 && t.scratchNat bead0 0x210 1 = 9 && (t.bead bead0).counter 5 = 1 &&
      t.devNat ⟨0, .h, 0x2002⟩ 2 = 1 && ((t.frame 0).gatherUnit 2).lists = []) = true := by decide +kernel

/-- A plan whose one list takes table 3's indices of batch slot 0, at offset 8 of its request block, for unit 2. -/
def plan0 : PlanList := ⟨3, 32, 0x3F, 0, 0, 1, 0x200, 80, 0, 5, some 0, true⟩

/-- Firing 1 with that plan, its step running; table 3; a command whose request block at 0x40 names row 1. -/
def planning (phase : CmdPhase) (slots : List (Nat × Nat)) : State :=
  let g : Firing := { firing0 with
    img := { image0 with contents := { image0.contents with plan := [plan0], routes := [[bead0]], indexPositions := [(3, 8)] } }
    pins := [⟨0, ⟨0, .h, 0⟩, true⟩], step := some { step0 with slots := slots } }
  ({ withTable (withFiring g) with cmds := [{ cmd0 0x02 phase with op0 := 1, op1 := 0x40 }] }).pokeDev ⟨0, .h, 0x48⟩ [1]

/-- R59, R482: a list of the step, once; from an empty slot a null index. R76: a run-ahead list of a waiting command is kept for it. -/
theorem test_index_lists :
    let indices := fun t : State => ((t.frame 0).gatherUnit 2).lists.map fun x => x.l.indices
    ((planning .waiting []).firing 1).map (fun g => ((planning .waiting []).planFor g 0 2 0).isSome) = some true ∧
    run (.indexList 0 2 ⟨1, 0, []⟩) (planning (.inSlot 0) [(0, 5)]) (fun t => indices t = [[1]] && still (.indexList 0 2 ⟨1, 0, []⟩) t) = true ∧
    run (.indexList 0 2 ⟨1, 0, []⟩) (planning .waiting []) (fun t => indices t = [[0xFFFFFFFF]]) = true ∧
    still (.indexList 0 3 ⟨1, 0, []⟩) (planning (.inSlot 0) [(0, 5)]) = true ∧
    run (.runAheadList 0 2 5 ⟨0, []⟩) (planning .waiting []) (fun t =>
      indices t = [[1]] && decide ((t.firings.map fun f => f.ahead.length) = [1])) = true := by decide +kernel

/-- R59: the bytes of a list. -/
theorem test_list_bytes :
    (planBytes plan0 true [0x01020304]).take 36 = leBytes 2 3 ++ leBytes 2 1 ++ leBytes 4 1 ++ leBytes 2 0 ++ leBytes 2 1 ++
      leBytes 2 0x200 ++ leBytes 2 80 ++ List.replicate 16 0 ++ [4, 3, 2, 1] ∧ (planBytes plan0 true [0x01020304]).length = 64 ∧
    (listOf firing0 0 plan0 (planBytes plan0 true [0x01020304])).indices = [0x01020304] := by decide +kernel

/-- Bay A holds a copy of row 0 in the extent 0 that its entry names. -/
def withExtent (s : State) : State :=
  s.setBay .a { State.reset.bayA with
    state := 4, rows := [(0, ⟨.c16, 0x7F00, [0x78], List.replicate 64 5⟩)] }

/-- R58, R70: a switch names its slot; the oldest request leaves with no room; a counter is lowered in one write. -/
theorem test_row_moves :
    let s := (withTable State.reset).modFrame 0 fun x => { x with promo := [⟨3, 0⟩, ⟨3, 1⟩] }
    s.movesRows = true ∧ (s.rowAt 0 3 1).isSome = true ∧
    s.lacksSlot 0 ⟨3, 0⟩ = false ∧ still (.promotionRoomTimeout 0) s = true ∧
    run (.promotionRoomTimeout 0) (s.modFrame 0 fun x => { x with tables := [(3, { table0 with desc := { table0.desc with allowed := 0 } })] })
      (fun t => (t.frame 0).promo = [⟨3, 1⟩] && (t.frame 0).counters.promoNoslot = 1) = true ∧
    run (.counterDecay 0 3 1 4) (s.pokeDev ⟨0, .h, 0x2002⟩ [9]) (fun t => t.devNat ⟨0, .h, 0x2002⟩ 2 = 4) = true ∧
    run (.promotion 0 (.slot .h .c16 0x800 0x7F00) false) (s.modFrame 0 fun x => { x with promo := [⟨3, 1⟩] })
      (fun t => (t.frame 0).promo = []) = true := by decide +kernel

/-- R92: row 1 relocates to slot 0x800 of tier L; its entry names it. -/
theorem test_relocation :
    let s := withTable State.reset
    let r := (s.rowAt 0 3 1)
    (r.map fun r => s.copyable 0 r && s.kilnSlotOk 0 r ⟨3, 1⟩ .l 0 0x800) = some true ∧
    run (.relocation 0 3 1 .l .c16 0x800 0x7F00) s (fun t =>
      (r.map fun r => t.entryAt r) = some ⟨true, .l, 0, 0x800, 0x7F00⟩) = true := by decide +kernel

/-- R70, R71, R92: row 0 comes from its extent to slot 0x800; row 1 goes to extent 7. -/
theorem test_tier_f :
    let s := withExtent ((withTable State.reset).modFrame 0 fun x => { x with promo := [⟨3, 0⟩] })
    let r0 := s.rowAt 0 3 0
    let r1 := s.rowAt 0 3 1
    (r0.map fun r => s.promotable 0 r ⟨3, 0⟩ .h .c16 0x800 && (s.extentRow (s.entryAt r).slot).isSome) = some true ∧
    run (.promotion 0 (.slot .h .c16 0x800 0x7F00) false) s (fun t => (t.frame 0).promo = [] && t.bayA.rows = [] &&
      (r0.map fun r => t.entryAt r) = some ⟨true, .h, 0, 0x800, 0x7F00⟩ && t.devNat ⟨0, .h, 0x20000⟩ 1 = 5) = true ∧
    run (.kilnPolicyMove 0 3 0 (.slot .h .c16 0x800 0x7F00)) s (fun t => t.bayA.rows = [] && (t.frame 0).promo = [⟨3, 0⟩]) = true ∧
    (r1.map fun r => s.copyable 0 r && s.extentFree 7 1) = some true ∧
    run (.kilnPolicyMove 0 3 1 (.extent 7)) s (fun t => (t.bayA.rows.map fun q => q.1) = [0, 7] &&
      (r1.map fun r => t.entryAt r) = some ⟨false, .h, 0, 7, 0x7F00⟩) = true := by decide +kernel

/-- R276, R483: a gather-miss fault of row 1 is resolved, of row 0 waits or is aborted; other faults stay. -/
theorem test_kiln_fault_resolve :
    let s := fun kind row => (withTable attached).modFaults 0 fun q =>
      { q with entries := [{ fault0 kind with addr := rowFaultAddr 3 row }], nextId := 10 }
    let open' := fun t : State => (t.part 0).faults.entries.length
    (s 5 1).missState { fault0 5 with addr := rowFaultAddr 3 1 } = .ready ∧
    (withExtent (s 5 0)).missState { fault0 5 with addr := rowFaultAddr 3 0 } = .waiting ∧
    (s 5 0).missState { fault0 5 with addr := rowFaultAddr 3 0 } = .lost ∧
    run (.kilnFaultResolve 0 9 true) (s 5 1) (fun t => open' t = 0) = true ∧
    still (.kilnFaultResolve 0 9 true) (withExtent (s 5 0)) = true ∧ still (.kilnFaultResolve 0 9 true) (s 6 0) = true ∧
    run (.kilnFaultResolve 0 9 false) (s 6 0) (fun t => open' t = 0) = true ∧
    still (.kilnFaultResolve 0 9 true) (s 1 1) = true := by decide +kernel

/-! ## Carry operations and the journal -/

/-- ADD of 1.0 × 1.0 to every element of block 0 of a row of table 3. -/
def add0 (row : Word32) : CarryOp :=
  ⟨1, 0, 3, row, 0, 1, 0x3F800000, 0, 0, 0, List.replicate 32 0x3F800000⟩

/-- Firing 1 issues carry operations in its step; table 3 as before. -/
def issuesCarry (mode : Nat) : State :=
  withTable (withFiring { firing0 with 
    img := { image0 with mode := mode, carryFlag := true, contents := { image0.contents with threads := [⟨bead0, 0, [0], none, none, some 0⟩] } }, step := some step0 })

/-- R83: BLOCK_COUNT 0, a span past the row, a reserved word, and EPSILON in an ADD are refused. -/
theorem test_op_fields :
    opFieldsOk (add0 1) 1 = true ∧ opFieldsOk { add0 1 with blockCount := 0, deltas := [] } 1 = false ∧
    opFieldsOk { add0 1 with firstBlock := 1 } 1 = false ∧ opFieldsOk { add0 1 with reserved := 1 } 1 = false ∧
    opFieldsOk { add0 1 with epsilon := 0x3F800000 } 1 = false ∧
    opFieldsOk { add0 1 with opcode := 2 } 1 = false ∧
    opFieldsOk { add0 1 with opcode := 2, epsilon := 0x3F800000 } 1 = true := by decide +kernel

/-- R81, R83, R91, R96: discarded, forwarded by a secondary, queued at unit 1 of slot 0x400, recorded cold. -/
theorem test_carry_dispatch :
    let s := issuesCarry 0
    let src : CarrySource := .step bead0 1
    s.sourceOk 0 src = true ∧ (s.chargeCarry src 0 8).isSome = true ∧ s.missBead src = none ∧ s.carryStopped = false ∧
    run (.carryDispatch 0 { add0 1 with blockCount := 0 } src []) s (fun t => (t.frame 0).counters.badOps = 1) = true ∧
    run (.carryDispatch 0 (add0 1) src []) { s with twin := { s.twin with role := 2 } } (fun t => t.twin.fwds.length = 1) = true ∧
    run (.carryDispatch 0 (add0 1) src []) s (fun t => ((t.frame 0).carryUnit 1).length = 1) = true ∧
    run (.carryDispatch 0 (add0 0) src []) s (fun t => (t.frame 0).cold = [⟨add0 0, src⟩]) = true ∧
    (issuesCarry 1).missBead src = some bead0 := by decide +kernel

/-- A carry unit with one job on row 1. -/
def carrying (op : CarryOp) : State :=
  (issuesCarry 0).setCarry 0 1 [⟨op, .step bead0 1, .h, .c16, 0x400, 0x7F00⟩]

/-- R84, R87: ADD adds; ADD_SCALED leaves an ADD alone. The row's elements were 0: each is 1.0 at the glaze code 0x00 that
65504 × g ≥ 1 needs, 3 × 2⁻¹⁷ or code 0x03. -/
theorem test_add :
    let s := carrying (add0 1)
    (s.rowAt 0 3 1).isSome = true ∧ (s.chargeCarry (.step bead0 1) 0 (carryUnits .h 0 (add0 1))).isSome = true ∧
    run (.add 0 1 []) s (fun t => (t.sideBytes ⟨0, .h, 0x400⟩).head? = some 3 && (t.frame 0).carryUnit 1 = [] &&
      (t.frame 0).journal.nextJseq = (s.frame 0).journal.nextJseq + 1) = true ∧ still (.addScaled 0 1 []) s = true := by decide +kernel

/-- R84, R182: the worked example of R182. -/
theorem test_add_block_worked_example :
    let out := addBlock 1 0 0x7F00 (val32 0x3F800000) (List.replicate 32 0)
      ([0x40400000, 0x3DCB0000, 0xBDCB0000].map val32 ++ List.replicate 29 .zero)
    out.1 = 0x3E ∧ out.2.1.take 3 = [0x7E, 0x57, 0xD7] ∧ out.2.2 = false := by decide +kernel

/-- R86: ADD_SCALED raises the accumulator by the mean square, 1.0, and applies −factor ÷ √(acc + ε). -/
theorem test_add_scaled :
    let op := { add0 1 with opcode := 2, epsilon := 0x3F800000, accAddr := 0x8000 }
    let s := ((carrying op).modFrame 0 fun x => { x with mirrored := [⟨0, .h, 0, 1, 0⟩] }).modFiring 1 fun f =>
      { f with pins := [⟨0, ⟨0, .h, 0⟩, true⟩] }
    (scaledFactor (val32 0x40400000) op).code32 = 0xBF000000 ∧
    run (.addScaled 0 1 []) s (fun t => t.devNat ⟨0, .h, 0x8000⟩ 4 = 0x3F800000 && (t.frame 0).carryUnit 1 = []) = true ∧
    still (.add 0 1 []) s = true := by decide +kernel

/-! ## The journal -/

/-- Bay A online, with the staging ring as at reset. -/
def journaling : State := { State.reset with bayA := { State.reset.bayA with state := 4 } }

/-- A GAP body; records of 48 bytes. -/
def body0 : JournalBody := .switch 0 1

/-- R104, R105, R107: staged, lost while no bay takes records, journaled by the primary alone. -/
theorem test_journal_append :
    journalLength body0 = 48 ∧ journaling.stageFits 0 48 = true ∧ State.reset.stageFits 0 48 = false ∧
    (((journaling.journalAppend 0 0 3 1 false body0).frame 0).journal.ring).map (fun r => r.jseq) =
      [(State.reset.frame 0).journal.nextJseq] ∧
    ((State.reset.journalAppend 0 0 3 1 false body0).frame 0).journal.lost =
      some ((State.reset.frame 0).journal.nextJseq, (State.reset.frame 0).journal.nextJseq) ∧
    (let s := { journaling with twin := { journaling.twin with role := 2 } }; s.journalAppend 0 0 3 1 false body0 = s) := by
  decide +kernel

/-- R105, R106: the bytes of a record, and its place in the stream: the last SEQ, or 0 where nothing was streamed. -/
theorem test_journal_bytes :
    let r : JournalRec := ⟨4, true, 0x0605, 0x0807, 9, 10, .switch 0x11 0x22⟩
    let bs := journalBytes r
    bs.length = 48 ∧ bs.take 28 = leBytes 2 4 ++ leBytes 2 48 ++ [4, 1, 5, 6] ++ leBytes 8 0x0807 ++ leBytes 8 9 ++ leBytes 4 10 ∧
    bs.drop 32 = leBytes 8 0x11 ++ leBytes 8 0x22 ∧
    (let s := State.reset.modFrame 0 fun x => { x with stream := { x.stream with nextSeq := 7 } }
     s.mseq 5 0 false body0 = 6 ∧ s.mseq 7 0 false body0 = 0) := by decide +kernel

/-- R104, R107, R437: frame 0's record goes to bay A, and leaves the ring when the saggar has it; a GAP record names what was
lost. -/
theorem test_journal_way :
    let s := journaling.journalAppend 0 0 3 1 false body0
    let u := s.bayA.sent ++ ((s.frame 0).journal.ring)
    s.bayFor 0 = some .a ∧ s.bayFor 10 = some .a ∧
    run (.journalDrain 0 1) s (fun t => t.bayA.sent = u && (t.frame 0).journal.sent = 1 &&
      run (.journalAck .a 1) t (fun v => v.bayA.held = u && (v.frame 0).journal.ring = [])) = true ∧
    run (.gapRecord 0) ((State.reset.journalAppend 0 0 3 1 false body0).setBay .a journaling.bayA) (fun t =>
      (t.frame 0).journal.lost = none && inMask t.gapFrames 0) = true := by decide +kernel

/-- R108: the shard of table 3 is written to bay A, and the frame's checkpoint is complete. -/
theorem test_checkpoint_shard :
    let s := (withTable journaling).modFrame 0 fun x => { x with journal := { x.journal with ckptLeft := some [(3, 0)] } }
    s.bayFor 0 = some .a ∧ (s.frame 0).kiln.absent = false ∧
    run (.checkpointShard 0 3 0) s (fun t => t.bayA.ckpts.map (fun c => c.rows.length) = [2] &&
      (t.frame 0).journal.ckptLeft = none && t.restored = [(3, 0)]) = true := by decide +kernel

/-! ## Firings and steps -/

/-- An image of 288 bytes without beads, in mode 3: header, five empty sections, bound record at 192, floor record at 256. -/
def imageFile : List Byte :=
  let table := [1, 2, 6, 7, 10].flatMap fun t => leBytes 2 t ++ [0xFF, 0] ++ leBytes 12 0
  let head := leBytes 4 0x4B414746 ++ leBytes 2 1 ++ leBytes 2 5 ++ leBytes 8 99 ++ leBytes 4 288 ++ [3, 0] ++ leBytes 2 1 ++
    leBytes 8 0 ++ leBytes 4 64 ++ leBytes 4 192 ++ leBytes 4 256 ++ leBytes 16 0
  head ++ leBytes 4 (crc32 (head ++ table)) ++ table ++ leBytes 48 0 ++ leBytes 64 0 ++
    leBytes 4 700 ++ leBytes 4 0 ++ [1, 1, 0, 1] ++ leBytes 20 0

/-- The image lies at 0 of partition 0; a firing command at its start. -/
def imaged (x : Cmd) : State := (mapped (withCmd x)).pokeDev ⟨0, .h, 0x40000000⟩ imageFile

/-- R24, R36, R37: an image that passes is admitted under the next handle; one in the wrong mode, or whose bytes are not an image,
is refused. -/
theorem test_firing_admit :
    let s := imaged (cmd0 0x01 .ready)
    s.masterTurn 5 = true ∧
    (parseImage imageFile noContents).map (fun i => (i.mode, i.floorMops, i.minRods)) = some (3, 700, 1) ∧
    (s.imageAt 0 0 noContents).map (fun i => (s.admitChecks 0 0 i, (s.pinsOf 0 i).isSome)) = some (none, true) ∧
    run (.firingAdmit 5 noContents) s (fun t => answered 0 0 t &&
      ((t.firing s.nextHandle).map fun f => (f.part, f.status)) = some (0, .running)) = true ∧
    run (.firingAdmit 5 noContents) (withCmd (cmd0 0x01 .ready)) (answered 1 0x01) = true ∧
    run (.firingAdmit 5 { noContents with tally := [(0, 1, 100001)] }) s (answered 1 0x07) = true := by decide +kernel

/-- A firing command on firing 1, with a firing there. -/
def commanding (op : Nat) (f : Firing) : State :=
  { imaged { cmd0 op .ready with op0 := 1, op1 := 0 } with firings := [f] }

/-- A firing without beads. -/
def beadless : Firing := { firing0 with img := { image0 with contents := noContents, beadFrames := 0 } }

/-- R24, R38: FIRING_RUN waits; a handle that is not admitted is refused. -/
theorem test_firing_run :
    run (.firingRun 5) (commanding 0x02 firing0) (fun t => t.cmds.map (fun x => x.phase) = [.waiting]) = true ∧
    run (.firingRun 5) (commanding 0x02 { firing0 with part := 1 }) (answered 1 0x10) = true := by decide +kernel

/-- R42, R225: a swap while a step runs is pending; with a joined sequence and another history it is refused. -/
theorem test_firing_swap :
    let f := { firing0 with step := some step0 }
    let g := { beadless with img := { beadless.img with seq := true, joinMax := 1 } }
    run (.firingSwap 5 noContents) (commanding 0x03 f) (fun t => t.firings.map (fun f => f.swap.isSome) = [true]) = true ∧
    run (.firingSwap 5 noContents) (commanding 0x03 g)
      (answered 0 0) = true ∧
    (let s := commanding 0x03 g
     run (.firingSwap 5 noContents) { s with cmds := s.cmds ++ [{ cmd0 0x02 (.inSlot 0) with id := 6, op0 := 1 }] }
       (answered 1 0x11)) = true ∧
    run (.firingSwap 5 noContents) { commanding 0x03 f with mem := State.reset.mem } (answered 1 0x01) = true := by decide +kernel

/-- R43: a firing without beads that runs no step goes at once; one with beads at its frames' quiescent points. -/
theorem test_firing_withdraw :
    run (.firingWithdraw 5) (commanding 0x04 beadless) (fun t => t.firings = [] && answered 0 0 t) = true ∧
    run (.firingWithdraw 5) (commanding 0x04 firing0) (fun t => t.firings.map (fun f => f.withdrawing) = [true] &&
      (t.frame 0).actions = [.withdraw 1]) = true := by decide +kernel

/-- R355: PREEMPT asks for a quiescent point; of a pre-empted firing it is OK. -/
theorem test_firing_preempt :
    run (.firingPreempt 5) (commanding 0x05 firing0) (fun t => (t.frame 0).actions = [.preempt 1]) = true ∧
    run (.firingPreempt 5) (commanding 0x05 { firing0 with status := .preempted }) (answered 0 0) = true := by decide +kernel

/-- R356: RESUME of a firing that runs is OK; one whose frame is fenced waits; one that passes enters, its step number anew (R421). -/
theorem test_firing_resume :
    let s := (commanding 0x06 { firing0 with status := .preempted }).modFrame 0 fun x => { x with fenced := true }
    run (.firingResume 5) (commanding 0x06 firing0) (answered 0 0) = true ∧
    s.checksFrom3 0 1 image0 = some 3 ∧
    (let p := commanding 0x06 { firing0 with status := .preempted, stepNo := 9 }
     p.hasMaster = true ∧ p.committing = false ∧ p.checksFrom3 0 1 image0 = none ∧ (p.pinsOf 0 image0).isSome = true ∧
     run (.firingResume 5) p (fun t => t.firings.map (fun f => (f.status, f.stepNo)) = [(.entering, 0)] &&
       (t.frame 0).actions = [.entry 1]) = true) ∧
    run (.firingResume 5) (commanding 0x06 { beadless with status := .preempted })
      (fun t => t.firings.map (fun f => f.status) = [.running]) = true ∧
    run (.firingResume 5) s (fun t => t.cmds.map (fun x => x.phase) = [.busy]) = true := by decide +kernel

/-- Firing 1 at its boundary, on a frame that has reached its floor, with a thread for context 0 of bead 0 and some commands. -/
def atStart (cs : List Cmd) : State :=
  let img := { image0 with contents := { image0.contents with threads := [⟨bead0, 0, [], none, none, none⟩], rotationOffset := 0x100 } }
  { ((withFiring { firing0 with img := img, stepNo := 65 }).modFrame 0 fun x => { x with cone := { x.cone with rate := 700 } }) with
    cmds := cs }

/-- R38, R111, R421: the step starts with the command in slot 0, x1 = 1, and the rotation word 65 mod 64; without work, or at a
rate below the floor, no step starts. -/
theorem test_step_boundary :
    let run0 := { cmd0 0x02 .waiting with op0 := 1 }
    let s := atStart [run0]
    s.firings.map (fun f => s.atBoundary f && s.hasWork f) = [true] ∧
    run (.stepBoundary 1) s (fun t => t.firings.map (fun f => f.step) = [some ⟨[(0, 5)], false, [], [], 0⟩] &&
      ((t.bead bead0).ctx 0).reg 1 = 1 && !((t.bead bead0).ctx 0).ended && ((t.bead bead0).ctx 1).ended &&
      t.scratchNat bead0 0x100 8 = 1) = true ∧
    run (.stepBoundary 1) (atStart []) (fun t => t.firings.map (fun f => f.step) = [none]) = true ∧
    still (.stepBoundary 1) (s.modFrame 0 fun x => { x with cone := { x.cone with rate := 699 } }) = true := by decide +kernel

/-- R216, R218, R220: a waiting sequence needs 2 blocks; with 2 free it may join (which blocks it takes is left open), with 1 it
is PENDING and counts as a deferral. -/
theorem test_sequence_defers :
    let img := { beadless.img with seq := true, seqBlocks := 2, joinMax := 1, maxSteps := 9 }
    let s := fun (pool : List Nat) =>
      { ((withFiring { beadless with img := img }).modPart 0 fun p => { p with blocks := pool }) with
        cmds := [{ cmd0 0x02 .waiting with op0 := 1 }] }
    let f := { beadless with img := img }
    (s [4, 9]).atBoundary f = true ∧ (s [4, 9]).hasWork f = true ∧ (s [4, 9]).mayJoin f { cmd0 0x02 .waiting with op0 := 1 } = true ∧
    ((s [4, 9]).runsOf f fun p => decide (p = .waiting)).length = 1 ∧ (s [4, 9]).otherPending f = [] ∧
    run (.stepBoundary 1) (s [4]) (fun t => t.cmds.map (fun x => x.phase) = [.pendingSeq] && (t.part 0).deferrals = 1) = true := by
  decide +kernel

/-- A step of firing 1 in a pass, with command 5 in slot 0; every context of its beads has ended. -/
def ending (img : Image) (pass : Nat) : State :=
  { withCmd { cmd0 0x02 (.inSlot 0) with op0 := 1 } with
    firings := [{ firing0 with img := img, step := some { step0 with slots := [(0, 5)], pass := pass } }] }

/-- R113, R48: the step ends and its command completes with OK; with a range trip RANGE_TRIP; not while a context runs. -/
theorem test_step_end :
    let s := ending image0 0
    let f := { firing0 with step := some { step0 with slots := [(0, 5)] } }
    s.firing 1 = some f ∧ s.allCtxs f (fun x => x.ended) = true ∧ s.worksDone f = true ∧ s.carries 1 = false ∧
    run (.stepEnd 1) s (fun t => answered 0 0 t && t.firings.map (fun f => (f.step, f.stepNo)) = [(none, 1)]) = true ∧
    run (.stepEnd 1) (s.modFiring 1 fun f => { f with step := f.step.map fun st => { st with trips := [0] } }) (answered 5 0) = true ∧
    still (.stepEnd 1) (s.setBead bead0 (Bead.reset.setCtx 0 { Ctx.reset with ended := false })) = true := by decide +kernel

/-- R192, R193, R212: passes start once every context is at its split or has ended. -/
theorem test_passes :
    let img := { image0 with tied := true, contents := { image0.contents with threads := [⟨bead0, 0, [], some 4, some 9, none⟩] } }
    let pass := fun t : State => t.firings.map fun f => f.step.map fun st => st.pass
    let busy := fun s : State => s.setBead bead0 (Bead.reset.setCtx 0 { Ctx.reset with ended := false, passSplit := some 4, tieSplit := some 9 })
    run (.forwardPassEnd 1) (ending img 0) (fun t => pass t = [some 1]) = true ∧
    still (.forwardPassEnd 1) (ending img 1) = true ∧ still (.forwardPassEnd 1) (busy (ending img 0)) = true ∧
    run (.tiePassStart 1) (ending img 1) (fun t => pass t = [some 2]) = true ∧
    still (.tiePassStart 1) (ending { img with tied := false } 1) = true ∧ still (.tiePassStart 1) (busy (ending img 1)) = true := by
  decide +kernel

/-- A rule with TRIM 0, LIMIT 0, MIN_COUNT 10, NARROW_HOLD 1, spans 8 and 16. -/
def rule0 : List Word64 := [0x0, 0x10080000#64, 10, 1]

/-- R201, R202: below MIN_COUNT nothing is decided; counts in bin 30 call for BF16; counts in one bin for E4M3. -/
theorem test_grad_rule :
    let y : RuleState := ⟨1, 0, [], [], some [(12, 9)]⟩
    let f := { firing0 with img := { image0 with rules := [rule0] } }
    let s := fun (read : Sparse Nat) => { State.reset with firings := [{ f with rules := [{ y with read := some read }] }] }
    let next := fun t : State => t.firings.flatMap fun f => f.rules.map fun r => (r.next, r.sums)
    run (.gradRuleEval 1 0) (s [(12, 9)]) (fun t => next t = [(0, [(12, 9)])]) = true ∧
    run (.gradRuleEval 1 0) (s [(12, 9), (30, 1)]) (fun t => next t = [(6, [])]) = true ∧
    run (.gradRuleEval 1 0) (s [(12, 10)]) (fun t => next t = [(1, [])]) = true := by decide +kernel

/-- R39, R41, R355: the action that waits at frame 0 is performed; not while a step with beads there runs. -/
theorem test_frame_quiescent :
    let s := fun (a : FrameAction) (f : Firing) => ({ State.reset with firings := [f] } : State).modFrame 0 fun x =>
      { x with actions := [a] }
    let e := s (.entry 1) { firing0 with status := .entering }
    e.kilnActs 0 = true ∧ e.frameHeld 0 = true ∧ e.quiet 0 = true ∧
    run (.frameQuiescent 0) (e.writeScratch bead0 8 [1]) (fun t => t.firings.map (fun f => f.status) = [.running] &&
      t.scratchNat bead0 8 1 = 0 && (t.frame 0).actions = []) = true ∧
    run (.frameQuiescent 0) (s (.preempt 1) firing0) (fun t => t.firings.map (fun f => f.status) = [.preempted]) = true ∧
    run (.frameQuiescent 0) (s (.withdraw 1) firing0) (fun t => t.firings = []) = true ∧
    still (.frameQuiescent 0) (s (.preempt 1) { firing0 with step := some step0 }) = true := by decide +kernel

/-! ## Rows, greenware, replay -/

/-- A ring command on table 3's row 1, with operand bytes at 0x4000 of partition 0 and slots in mirrored pages 0 to 3. -/
def rowCommand (op : Nat) (op1 : Word64) (op2 : Word64) (bytes : List Byte) : State :=
  (withTable (mapped (withCmd { cmd0 op .ready with op0 := 0x100000003, op1 := op1, op2 := op2 }))).pokeDev ⟨0, .h, 0x40004000⟩ bytes

/-- An ADD of 1.0 to row 1, in E4M3 deltas. -/
def listedAdd : List Byte :=
  [1, 2] ++ leBytes 2 3 ++ leBytes 4 1 ++ leBytes 2 0 ++ leBytes 2 1 ++ leBytes 4 0x3F800000 ++ leBytes 16 0 ++
    List.replicate 32 0x38

/-- R82, R89, R481: a list of one operation goes to carry unit 1 and the command waits for it; an empty one completes; one at an
address that does not translate faults. -/
theorem test_carry_submit :
    let s := fun (n : Word64) => ({ rowCommand 0x08 0 0 listedAdd with
      cmds := [{ cmd0 0x08 .ready with op0 := 0x4000, op1 := n }] } : State)
    let x := { cmd0 0x08 .ready with op0 := 0x4000, op1 := 64 }
    (s 64).unasked x 0x4000 64 = [] ∧ (s 64).cmdAwaits 5 = false ∧
    (s 64).operandRead x 0x4000 0x4000 32 [] = .got (listedAdd.take 32) [] ∧ listedLength (listedAdd.take 32) 64 = 64 ∧
    run (.carrySubmit 5 []) (s 64) (fun t => ((t.frame 0).carryUnit 1).length = 1 &&
      t.cmds.map (fun y => (y.outstanding, y.done)) = [(1, 64)]) = true ∧
    run (.carrySubmit 5 []) (s 0) (answered 0 0) = true ∧
    run (.carrySubmit 5 []) { s 64 with mem := State.reset.mem } (fun t => t.cmds.map (fun y => y.phase) = [.faultWait] &&
      (t.part 0).faults.entries.length = 1) = true := by decide +kernel

/-- R94, R96, R484: row 1's image goes to slot 0x800 of tier H, which stays reserved for it; a secondary refuses; slot 0x400, which
its entry names, is refused with 0x1C, and a reserved bit of the side record with 0x1B. -/
theorem test_row_write :
    let img := leBytes 8 0x7F00 ++ leBytes 8 0x78 ++ List.replicate 64 3
    let s := rowCommand 0x09 0x800 0x4000 img
    s.cmds.map (fun x => (s.ownRow x).isSome) = [true] ∧
    run (.rowWrite 5 []) s (fun t => answered 0 0 t && t.devNat ⟨0, .h, 0x20000⟩ 2 = 0x0303 &&
      t.sideBytes ⟨0, .h, 0x800⟩ = [0x78, 0, 0, 0] && t.slotsReserved.map (fun u => u.slot) = [0x800]) = true ∧
    run (.rowWrite 5 []) { s with twin := { s.twin with role := 2 } } (answered 1 0x16) = true ∧
    run (.rowWrite 5 []) (rowCommand 0x09 0x400 0x4000 img) (answered 1 0x1C) = true ∧
    run (.rowWrite 5 []) (rowCommand 0x09 0x800 0x4000 (leBytes 8 0x2007F00)) (answered 1 0x1B) = true := by decide +kernel

/-- R93, R484: the entry that the command expects is switched to the reserved slot; another is refused with 0x12, an unreserved
slot with 0x1B; while a step runs the command waits for its end. -/
theorem test_row_switch :
    let new : DirEntry := ⟨true, .h, 0, 0x800, 0x7F00⟩
    let s := fun (old : Nat) => ({ rowCommand 0x0A (BitVec.ofNat 64 old) (BitVec.ofNat 64 new.toNat) [] with
      slotsReserved := [⟨⟨3, 1⟩, 0, .h, 0x800, 1, [], none⟩] } : State)
    run (.rowSwitch 5) (s entry1.toNat) (fun t => answered 0 0 t && t.devNat ⟨0, .h, 0x1008⟩ 8 = new.toNat) = true ∧
    run (.rowSwitch 5) { s entry1.toNat with firings := [{ firing0 with step := some step0 }] } (fun t =>
      t.cmds.map (fun y => (y.phase, y.steps0)) = [(.busy, [1])] && t.devNat ⟨0, .h, 0x1008⟩ 8 = new.toNat) = true ∧
    run (.rowSwitch 5) (s 0) (answered 1 0x12) = true ∧
    run (.rowSwitch 5) { s entry1.toNat with slotsReserved := [] } (answered 1 0x1B) = true := by decide +kernel

/-- R411, R412: an empty change list passes; an entry of no structure fails with REASON 1 at ENTRY 0; a list that cannot be read
fails with REASON 3; while the bank commits CHECK is refused. -/
theorem test_check :
    let s := fun (n : Nat) => (mapped (withCmd (cmd0 0x28 .ready))).modPart 0 fun p =>
      { p with staged := { p.staged with listCount := n } }
    let bank := fun t : State => ((t.part 0).bank.state, (t.part 0).bank.reason, (t.part 0).bank.entry)
    (s 0).masterTurn 5 = true ∧ (s 0).readList 0 = some [] ∧ (s 0).twinBars [] = false ∧
    run (.check 5 true) (s 0) (fun t => answered 0 0 t && bank t = (3, 0, 0)) = true ∧
    run (.check 5 true) (s 1) (fun t => answered 0 0 t && bank t = (4, 1, 0)) = true ∧
    run (.check 5 true) { s 1 with mem := State.reset.mem } (fun t => bank t = (4, 3, 0xFFFFFFFF)) = true ∧
    run (.check 5 true) ((s 0).modPart 0 fun p => { p with bank := { p.bank with state := 6 } }) (answered 1 0x18) = true := by
  decide +kernel

/-- R415: a list with a table, which the twin's check refuses, fails with REASON 7 at that entry; the COMMIT of one that passed ends
once the twin has applied it. -/
theorem test_twin_checks :
    let e : GwEntry := ⟨1, 0, 3, 1, false, []⟩
    let pair := fun s : State => ({ s with twin := { s.twin with paired := true } } : State).modFrame 0 fun x => { x with streamUp := true }
    let s := pair (withCmd (cmd0 0x29 .busy)).masterFree
    let c := s.modPart 0 fun p => { p with
      staged := { p.staged with serveOnly := true }, bank := { p.bank with state := 6, cid := some 5, list := [e], twin := true } }
    carried [e] = true ∧ s.carriesLists = true ∧ c.commitLeft (c.part 0).bank = [] ∧
    run (.commit 5 true) c (fun t => (t.part 0).live.serveOnly && (t.part 0).bank.state = 0) = true ∧
    still (.commit 5 false) c = true := by decide +kernel

/-- R411, R413, R414: COMMIT of a PASSED bank waits for every frame; the last frame puts the staged registers in force;
GW_DISCARD takes them back. -/
theorem test_commit_discard :
    let s := (withCmd (cmd0 0x29 .ready)).modPart 0 fun p =>
      { p with staged := { p.staged with serveOnly := true }, bank := { p.bank with state := 3 } }
    let c := s.modPart 0 fun p => { p with bank := { p.bank with state := 6, left := [7] } }
    s.twinBars [] = false ∧
    run (.commit 5 true) s (fun t => (t.part 0).bank.state = 6 && !(t.part 0).live.serveOnly &&
      (t.frame 19).actions = [.commit 0]) = true ∧
    run (.commit 5 true) (s.modPart 0 fun p => { p with bank := { p.bank with state := 4 } }) (answered 1 0x18) = true ∧
    ((c.commitFrame 0 7).part 0).live.serveOnly = true ∧ ((c.commitFrame 0 7).part 0).bank.state = 0 ∧
    run (.gwDiscard 0 1) s (fun t => !(t.part 0).staged.serveOnly && (t.part 0).bank.state = 0) = true ∧
    still (.gwDiscard 0 0) s = true := by decide +kernel

/-- An EPOCH_START record of 208 bytes whose LAST_SEQ of frame 0 is 4. -/
def epochStart : List Byte :=
  let head := leBytes 2 7 ++ leBytes 2 208 ++ leBytes 24 0
  let tail := leBytes 8 0 ++ leBytes 8 4 ++ leBytes 160 0
  head ++ leBytes 4 (crc32 (head ++ leBytes 4 0 ++ tail)) ++ tail

/-- R96, R103: the one record that bay A holds after SEQ 4 is applied; a secondary refuses; without the EPOCH_START record 0xF0. -/
theorem test_journal_replay :
    let w := (⟨true, .h, 0, 0x800, 0x7F00⟩ : DirEntry).toNat
    let s := fun (mseq : Nat) => ((withTable (mapped (withCmd { cmd0 0x31 .ready with op0 := 0x4000, op1 := 1 }))).pokeDev
      ⟨0, .h, 0x40004000⟩ epochStart).setBay .a { State.reset.bayA with
        state := 4, held := [⟨0, false, 3, 1, mseq, 1, .switch 0 (BitVec.ofNat 64 w)⟩] }
    ((s 5).epochStartAt 0 0x4000).map (fun l => l.getD 0 0) = some 4 ∧ (s 5).bayA.ckpts = [] ∧ (s 5).bayB.held = [] ∧
    run (.journalReplay 5) (s 5) (fun t => answered 0 0 t && t.devNat ⟨0, .h, 0x1008⟩ 8 = w) = true ∧
    run (.journalReplay 5) (s 4) (fun t => t.devNat ⟨0, .h, 0x1008⟩ 8 = entry1.toNat) = true ∧
    run (.journalReplay 5) { s 5 with twin := { (s 5).twin with role := 2 } } (answered 1 0x16) = true ∧
    run (.journalReplay 5) { s 5 with mem := State.reset.mem } (answered 1 0xF0) = true := by decide +kernel

/-! ## The pair -/

/-- A paired module in a role, its frames' lanes up and CLEAN, with tier H's first page of frame 0 mirrored. -/
def paired (role : Nat) : State :=
  let s := State.reset.modFrame 0 fun x => { x with mirrored := [⟨0, .h, 0, 1, 0⟩], streamUp := true }
  { s with twin := { s.twin with
    paired := true, far := false, role := role, peerRole := 3 - role, mirror := (List.range 20).map fun f => (f, 0) } }

/-- A record of burst 5 of tier H. -/
def rec0 (seq : Nat) : StreamRec := ⟨seq, .h, 5, [1, 2, 3, 4], List.replicate 64 7⟩

/-- R98, R99: the secondary writes the record and acknowledges its SEQ; the primary takes records up to the SEQ off its list. -/
theorem test_stream :
    let un := (paired 1).modFrame 0 fun x => { x with stream := { x.stream with unacked := [rec0 3, rec0 4], nextSeq := 5 } }
    (paired 2).pairUp 0 = true ∧ (paired 2).isSecondary = true ∧
    run (.streamRecord 0 (.burst (rec0 9))) (paired 2) (fun t => t.sideBytes ⟨0, .h, 5⟩ = [1, 2, 3, 4] &&
      t.devNat ⟨0, .h, 320⟩ 1 = 7 && (t.frame 0).stream.written = 10 && t.twin.sent = [(0, 2, [9])]) = true ∧
    run (.streamAck 0 3) un (fun t => (t.frame 0).stream.unacked = [rec0 4] && t.twin.mirrorOf 0 = 0) = true := by decide +kernel

/-- R99, R241: a dirty region may go out again; a good burst asked for goes out as the next record; a bad one does not. -/
theorem test_resend :
    let d : Unit64 := ⟨0, .h, 0⟩
    let s := (paired 1).modFrame 0 fun x => { x with stream := { x.stream with dirty := [d] } }
    (d.pageBursts.all fun u => !s.badBurst u) = true ∧ (s.frame 0).stream.unacked.length + 1024 ≤ 65536 ∧
    (paired 1).burstMirrored ⟨0, .h, 5⟩ = true ∧
    run (.burstReq 0 .h 5) (paired 1) (fun t => (t.frame 0).stream.unacked.map (fun r => r.burst) = [5]) = true ∧
    (let b := { paired 1 with mem := { (paired 1).mem with poisoned := [⟨0, .h, 5⟩] } }
     still (.burstReq 0 .h 5) b = true) := by decide +kernel

/-- R100: a region without a write in flight may be swept; a secondary holds a digest whose SEQ it has not written. -/
theorem test_mirror_sweep :
    let g : Unit64 := ⟨0, .h, 0⟩
    (paired 1).pageMirrored g = true ∧ ((paired 1).frame 0).stream.inFlight g = false ∧
    ((paired 1).chargeScrub 0 1024).isSome = true ∧ ((paired 2).frame 0).stream.written ≤ 4 ∧
    run (.digest 0 .h 0 4 9) (paired 2) (fun t => (t.frame 0).stream.digests = [(g, 4, 9)]) = true := by decide +kernel

/-- R100: the primary's comparison may come out either way. -/
theorem test_digest_values (s : State) (g : Unit64) : ∃ v w, s.regionDigest g = v ∧ s.regionDigest g ≠ w :=
  ⟨s.regionDigest g, s.regionDigest g + 1, rfl, by bv_omega⟩

/-- R99, R101: silence takes frame 0 DOWN with its unacknowledged record's region dirty; R391: the fence signal goes in and out. -/
theorem test_silence :
    let s := (paired 1).modFrame 0 fun x => { x with stream := { x.stream with unacked := [rec0 3] } }
    let q := { paired 1 with twin := { (paired 1).twin with silence := true } }
    let r := { paired 2 with twin := { (paired 2).twin with silence := true } }
    run .twinSilence s (fun t => (t.frame 0).stream.dirty = [⟨0, .h, 0⟩] && t.twin.mirrorOf 0 = 2 && t.twin.silence) = true ∧
    run (.silenceSelfFence []) { q with seqr := { q.seqr with resetPin := true } } (fun t => t.ka.twinFence && t.cmds = []) = true ∧
    run .silenceFenceAssert r (fun t => t.twin.fenceOut && (t.frame 19).actions = [.promoteTwin]) = true ∧
    r.becomePrimary.twin.role = 1 ∧ r.becomePrimary.twin.epoch = r.twin.epoch + 1 := by decide +kernel

/-- R391, R393: the fence signal holds the module at step 3 until it is released; a new primary releases its own. -/
theorem test_twin_fence :
    State.reset.sampled = true ∧
    run (.twinFenceIn false) State.reset (fun t => t.seqr.phase = .step3 && t.ka.twinFence && t.seqr.twinFence &&
      !t.seqr.resetPin && !t.seqr.thermal && !t.ka.bootHold) = true ∧
    run (.twinFenceRelease []) { paired 1 with twin := { (paired 1).twin with fenceOut := true } }
      (fun t => !t.twin.fenceOut) = true ∧
    (let s := { State.reset with seqr := { State.reset.seqr with fenceIn := 3 } }
     run (.twinFenceRelease [] true) s (fun t => t.seqr.twinFence && decide (t.seqr.fenceIn = 1)) = true) := by decide +kernel

/-- R102: HANDOVER to a secondary that has written the last SEQ of frame 0, and to one that has not. -/
theorem test_handover :
    let s := (paired 2).modFrame 0 fun x => { x with stream := { x.stream with written := 5 } }
    run (.handover [4]) s (fun t => (t.frame 0).actions = [.promoteTwin]) = true ∧ still (.handover [5]) s = true := by
  decide +kernel

/-- R381, R382, R384: HELLO of a primary to a module without a role; AT_RISK of frame 0. -/
theorem test_hello :
    let s := paired 0
    s.twin.band2 = false ∧
    run (.hello 0 ⟨77, 1, 6, 0, 0⟩ []) s (fun t => t.twin.role = 3 && t.twin.epoch = 6 && t.twin.peerId = 77) = true ∧
    run (.hello 0 ⟨77, 2, 6, 0, 0⟩ []) (paired 1) (fun t => t.twin.role = 1 && t.twin.peerRole = 2) = true ∧
    run (.atRisk 0 2) (paired 1) (fun t => t.twin.peerHot = 1) = true ∧
    run (.atRisk 0 1) { paired 1 with twin := { (paired 1).twin with peerHot := 3 } } (fun t => t.twin.peerHot = 2) = true := by
  decide +kernel

/-- R264: a pair event counts in the running step, or is kept; R96, R103: a forwarded operation is dispatched, and acknowledged. -/
theorem test_twin_operations :
    let s := fun f => { paired 1 with firings := [f] }
    run (.pairEvent bead0 4) (s { firing0 with step := some step0 }) (fun t => (t.bead bead0).counter 4 = 1) = true ∧
    run (.pairEvent bead0 4) (s firing0) (fun t => t.firings.map (fun f => f.keptEvents) = [[(bead0, 4)]]) = true ∧
    run (.carryFwd 0 6 (add0 1)) (withTable (paired 1)) (fun t => ((t.frame 0).carryUnit 1).length = 1) = true ∧
    run (.fwdAck 3) { paired 2 with twin := { (paired 2).twin with
      fwds := [(3, 0, add0 1, .step bead0 1), (4, 0, add0 1, .step bead0 1)] } } (fun t => t.twin.fwds.length = 1) = true := by
  decide +kernel

/-! ## Memory tiers -/

/-- Frame 0's stack at a band. -/
def atBand (b : Nat) : State := State.reset.modFrame 0 fun x => { x with mem := { x.mem with band := b } }

/-- R236: entry at 85, 95 and 105 °C, exit at 82 and 92 °C. -/
theorem test_hbm_temp :
    let band := fun b t => run (.hbmTempSample 0 (some t)) (atBand b)
    band 0 84 (fun t => (t.frame 0).mem.band = 0) = true ∧ band 0 85 (fun t => (t.frame 0).mem.band = 1) = true ∧
    band 1 83 (fun t => (t.frame 0).mem.band = 1) = true ∧ band 1 82 (fun t => (t.frame 0).mem.band = 0) = true ∧
    band 0 95 (fun t => (t.frame 0).mem.band = 2) = true ∧ band 2 93 (fun t => (t.frame 0).mem.band = 2) = true ∧
    band 2 92 (fun t => (t.frame 0).mem.band = 1) = true ∧ band 2 82 (fun t => (t.frame 0).mem.band = 0) = true ∧
    band 2 104 (fun t => (t.frame 0).mem.band = 2) = true ∧ band 2 105 (fun t => t.seqr.thermal) = true := by decide +kernel

/-- R237, R238: three samples in a row without a report are band 2 and lost; the action follows the band. R47: commands of a
firing that names the frame are at risk. -/
theorem test_lost_samples :
    let s := fun n => State.reset.modFrame 0 fun x => { x with mem := { x.mem with missed := n } }
    run (.hbmTempSample 0 none) (s 1) (fun t => (t.frame 0).mem.band = 0 && (t.frame 0).mem.missed = 2) = true ∧
    run (.hbmTempSample 0 none) (s 2) (fun t => (t.frame 0).mem.band = 2 && (t.frame 0).mem.lost) = true ∧
    run (.bandAction 0) (atBand 2) (fun t => (t.frame 0).mem.action = 2) = true ∧
    run (.hbmTempSample 0 (some 95)) { withFiring firing0 with cmds := [{ cmd0 0x02 .waiting with op0 := 1 }] }
      (fun t => t.cmds.map (fun x => x.met image0) = [true]) = true := by decide +kernel

/-- R240, R241, R243: what the scrubber finds. -/
theorem test_scrub :
    let k := fun t : State => ((t.frame 0).counters.memCe, (t.frame 0).counters.memUe, t.badBurst ⟨0, .h, 5⟩)
    (State.reset.chargeScrub 0 1).isSome = true ∧
    run (.scrub 0 .h 5 .clean) State.reset (fun t => k t = (0, 0, false)) = true ∧
    run (.scrub 0 .h 5 .correctable) State.reset (fun t => k t = (1, 0, false)) = true ∧
    run (.scrub 0 .h 5 .uncorrectable) State.reset (fun t => k t = (0, 1, true)) = true := by decide +kernel

/-- R244 to R246: without a reason nothing is mapped out; a second error in a burst after it was written whole is one; targets that
clash are not taken; a page frame restores, in order. -/
theorem test_map_out :
    let e : BurstErr := ⟨⟨0, .h, 5⟩, 3, true, true⟩
    let due := { State.reset with mem := { State.reset.mem with errors := [e] } }
    let out := State.reset.modFrame 0 fun x => { x with mem := { x.mem with chOut := [3], choosing := [.channel 3] } }
    let back := (State.reset.modFrame 0 fun x => { x with mem := { x.mem with mapState := 2 } })
    let back := { back with mem := { back.mem with restoring := [⟨0, .h, 2⟩, ⟨0, .h, 3⟩] } }
    due.mapOutDue 0 (.channel 3) = true ∧ State.reset.mapOutDue 0 (.channel 3) = false ∧
    still (.mapOut 0 (.channel 3) []) State.reset = true ∧
    out.movesOk (out.retireOf 0 (.channel 3) [(1, 1), (1, 1)]) = false ∧ still (.mapOut 0 (.channel 3) [(1, 1), (1, 1)]) out = true ∧
    out.targetsOk ⟨0, .h, [4], []⟩ = true ∧
    back.restoresNext ⟨0, .h, 2⟩ = true ∧ back.restoresNext ⟨0, .h, 3⟩ = false := by decide +kernel

/-! ## Host ports -/

/-- R326, R327: an unmapped page reads as ones and counts; a mapped page gives its bytes. -/
theorem test_window_read :
    let s := (mapped64 State.reset).pokeDev ⟨0, .h, 0x20010⟩ [7, 8]
    s.portUp 0 = true ∧ s.walkAt 0 0 ((s.port 0).baseNow + 0x10) = .leaf 0x20007 ∧
    run (.windowRead 0 0x10 2 []) s (fun t => (t.port 0).tx = [.windowRead [7, 8] false] && (t.port 0).winErrs = 0) = true ∧
    run (.windowRead 0 0x10000 2 []) s (fun t => (t.port 0).tx = [.windowRead [0xFF, 0xFF] false] && (t.port 0).winErrs = 1) = true := by
  decide +kernel

/-- R327: a write is stored; on an unmapped page, or one without WRITE, it counts; on a BUSY page it waits, and what follows it too. -/
theorem test_window_write :
    let s := mapped64 State.reset
    let leaf := fun (w : Nat) => s.pokeDev ⟨0, .h, 0x12000⟩ (leBytes 8 w)
    run (.windowWrite 0 0xFFFE [7, 8]) s (fun t => t.devNat ⟨0, .h, 0x2FFFE⟩ 2 = 0x0807 && (t.port 0).winErrs = 0) = true ∧
    run (.windowWrite 0 0x10000 [7]) s (fun t => (t.port 0).winErrs = 1) = true ∧
    (Leaf.ofWord 0x20003).write = false ∧ run (.windowWrite 0 0 [7]) (leaf 0x20003) (fun t => (t.port 0).winErrs = 1) = true ∧
    (Leaf.ofWord 0x21007).busy = true ∧
    run (.windowWrite 0 0 [7]) (leaf 0x21007) (fun t => (t.port 0).winWaits = [⟨0, [7], 0, []⟩] &&
      run (.windowRead 0 0x10000 2 []) t fun u => (u.port 0).winWaits.length = 2) = true := by decide +kernel

/-- Port 0 with a change. -/
def port0 (g : Port → Port) : State := (mapped64 State.reset).modPort 0 g

/-- R326, R330: WIN_BASE[51:28] is pending until nothing waits; then every bias bit is 0. -/
theorem test_win_base :
    run (.winBaseWrite 0 0x30000000) (port0 fun x => { x with shared := [9] })
      (fun t => (t.port 0).slideTo = some 3 && (t.port 0).clearing = [9] && (t.port 0).winBase = 0) = true ∧
    run (.winSlideDone 0) (port0 fun x => { x with slideTo := some 3, shared := [9] })
      (fun t => (t.port 0).winBase = 3 && (t.port 0).shared = [] && (t.port 0).slideTo = none) = true ∧
    still (.winSlideDone 0) (port0 fun x => { x with slideTo := some 3, clearing := [9] }) = true := by decide +kernel

/-- R329, R330: page 0 may be shared, page 1, which is unmapped, is refused; BIRsp ends a back-invalidation, or answers. -/
theorem test_bias :
    let cxl := fun (g : Port → Port) => port0 fun x => g { x with cxl := true }
    (cxl id).mayShare 0 0 = true ∧ (cxl id).mayShare 0 1 = false ∧
    run (.biasSet 0 0) (cxl id) (fun t => (t.port 0).shared = [0]) = true ∧
    run (.biasSet 0 1) (cxl id) (fun t => (t.port 0).biasRefused) = true ∧ still (.biasSet 0 0) (port0 id) = true ∧
    run (.biasClear 0 4095) (cxl fun x => { x with shared := [4095] }) (fun t => (t.port 0).clearing = [4095]) = true ∧
    run (.birsp 0 9) (cxl fun x => { x with shared := [9], clearing := [9] }) (fun t => (t.port 0).shared = []) = true ∧
    run (.birsp 0 9) (cxl fun x => { x with shared := [9] }) (fun t => (t.port 0).answered = [9]) = true := by decide +kernel

/-- R322, R334 to R336: each event takes port 0 DOWN; a ring that was in use drains, and its command is marked. -/
theorem test_port_down :
    let s := { attached with cmds := [cmd0 0x3F .ready] }
    let down := fun t : State => (t.port 0).state = 0 && (t.port 0).epoch = (s.port 0).epoch + 1 && (t.ring 0 0).state = 4 &&
      (t.ring 0 1).state = 0 && t.cmds.map (fun x => x.down) = [some ((s.port 0).epoch + 1)]
    let cxl := s.modPort 0 fun x => { x with cxl := true }
    let rec' := s.modPort 0 fun x => { x with state := 3 }
    run (.hotReset 0 0) s down = true ∧ run (.functionLevelReset 0 0) s down = true ∧ run (.d3hotEntry 0 0) s down = true ∧
    run (.dlDown 0 0) s down = true ∧ run (.viral 0 0) cxl down = true ∧ still (.viral 0 0) s = true ∧
    run (.recoveryTimeout 0 0) rec' down = true ∧ still (.recoveryTimeout 0 0) s = true ∧
    run (.perst 0 0) s (fun t => down t && t.ka.perst = 1) = true := by decide +kernel

/-- R323, R334, R342: recovery and back, a link that comes up, ATTACH. -/
theorem test_port_up :
    run (.linkRecovery 0 true) attached (fun t => (t.port 0).state = 3 &&
      run (.linkRecovery 0 false) t (fun u => (u.port 0).state = 2)) = true ∧
    run (.hostLinkUp 0 true true 6 16) (port0 fun x => { x with state := 0 })
      (fun t => (t.port 0).state = 1 && (t.port 0).cxl && (t.port 0).width = 16) = true ∧
    run (.attach 0 1) (port0 fun x => { x with state := 1 }) (fun t => (t.port 0).state = 2) = true ∧
    still (.attach 0 0) (port0 fun x => { x with state := 1 }) = true := by decide +kernel

/-- R341, R446: SHADOW_HEAD passes the two entries written, not three; FAULT_RING_HEAD goes from 1,024 to 0, not past it. -/
theorem test_heads :
    let s := port0 fun x => { x with shadowHead := 16383, shadowUnread := 2 }
    let f := State.reset.modFaults 0 fun q => { q with ringHead := 1024, written := 1, passed := 0 }
    run (.shadowHeadWrite 0 1) s (fun t => (t.port 0).shadowHead = 1 && (t.port 0).shadowUnread = 0) = true ∧
    run (.shadowHeadWrite 0 2) s (fun t => (t.port 0).shadowHead = 16383 && (t.port 0).setupErrs = 1) = true ∧
    (f.part 0).faults.unread = 1 ∧
    run (.faultRingHeadWrite 0 0) f (fun t => (t.part 0).faults.ringHead = 0) = true ∧
    run (.faultRingHeadWrite 0 1) f (fun t => (t.port 0).setupErrs = 1) = true ∧
    run (.faultRingHeadWrite 0 1025) f (fun t => (t.port 0).setupErrs = 1) = true := by decide +kernel

/-! ## Tallies, the cone loop, accounting -/

/-- R353, R354, R365: a period pays off each refill, counts what waited, and adds the energy above the cap. -/
theorem test_tally_period :
    let s := State.reset.modTally 0 fun t =>
      { t with remainder := [(1, 100007)], scrub := 40001, held := [1], released := true }
    let e := (s.modFrame 0 fun x => { x with cone := { x.cone with cap := 50 } })
    s.remainderOf 0 0 1 = 100000 ∧ Sparse.wf 0 [(1, 100007)] = true ∧
    run (.tallyPeriod 0 503) e (fun t => Sparse.read 0 (t.frame 0).tally.remainder 1 = 7 && (t.frame 0).tally.scrub = 1 &&
      Sparse.read 0 (t.part 0).holds 1 = 1 && !(t.frame 0).tally.released && (t.frame 0).cone.excess = 30) = true ∧
    run (.tallyPeriod 0 500) e (fun t => (t.frame 0).cone.excess = 0) = true ∧
    run (.quotaPoolRelease 0) State.reset (fun t => (t.frame 0).tally.released) = true ∧
    (State.reset.chargePart 0 0 1 100000).map (fun t => Sparse.read 0 (t.frame 0).tally.remainder 1) = some 100000 := by
  decide +kernel

/-- Frame 0's supply at a voltage, TARGET 700, SPEED 900, cap 50 W. -/
def cone0 (mv : Nat) (absent : Bool) : State := State.reset.modFrame 0 fun x =>
  { x with cone := { x.cone with mv := mv, target := 700, speed := 900, cap := 50, slow := 0 }, kiln := { x.kiln with absent := absent } }

/-- R361, R362, R365, R405: below NEED, 720, the supply rises to 620 mV at most; above the cap it falls to 480 mV at least where
RATE is 740; at 739 the cap is overridden. -/
theorem test_cone :
    let mv := fun t : State => (t.frame 0).cone.mv
    run (.coneSample 0 719 0) (cone0 618 false) (fun t => mv t = 620) = true ∧
    run (.coneSample 0 740 501) (cone0 550 false) (fun t => mv t = 545) = true ∧
    run (.coneSample 0 740 501) (cone0 482 false) (fun t => mv t = 480) = true ∧
    run (.coneSample 0 739 501) (cone0 550 false) (fun t => (t.frame 0).cone.overridden && inMask (t.part 0).capStatus 0 &&
      (t.port 0).msix = [1]) = true ∧
    run (.coneSample 0 720 500) (cone0 550 true) (fun t => mv t = 550 && !(t.frame 0).cone.overridden) = true := by decide +kernel

/-- R364: FRAME_CAP 20 to 95, SPEED 700 to 1,000; a frame of another partition does not take the write. -/
theorem test_caps :
    let cap := fun t : State => (t.frame 0).cone.cap
    let errs := fun t : State => (t.port 0).setupErrs
    run (.frameCapWrite 0 0 20) State.reset (fun t => cap t = 20 && errs t = 0) = true ∧
    run (.frameCapWrite 0 0 95) State.reset (fun t => cap t = 95) = true ∧
    run (.frameCapWrite 0 0 19) State.reset (fun t => errs t = 1) = true ∧
    run (.frameCapWrite 0 0 96) State.reset (fun t => errs t = 1) = true ∧
    run (.speedWrite 0 0 1000) State.reset (fun t => (t.frame 0).cone.speed = 1000) = true ∧
    run (.speedWrite 0 0 700) State.reset (fun t => (t.frame 0).cone.speed = 700) = true ∧
    run (.speedWrite 0 0 699) State.reset (fun t => errs t = 1) = true ∧
    run (.speedWrite 0 0 1001) State.reset (fun t => errs t = 1) = true ∧
    still (.frameCapWrite 0 5 30) State.reset = true ∧ still (.speedWrite 0 5 800) State.reset = true := by decide +kernel

/-- R359: a record whose firing has ended is freed; one in use is not. -/
theorem test_acct_free :
    let s := fun n => State.reset.modPart 0 fun p => { p with acct := [(255, { AcctRecord.free with state := n })] }
    run (.acctFree 0 255) (s 3) (fun t => (t.part 0).acct = []) = true ∧ still (.acctFree 0 255) (s 1) = true := by decide +kernel

/-! ## Rods -/

/-- R12, R425: a failed rod is recorded and asks for its substitution; the third miss in a row fails a rod. -/
theorem test_rod_fail :
    let g := fun t : State => (t.frame 0).group 0
    let misses := fun n => State.reset.modGroup 0 0 fun g => { g with missed := [(0, n)] }
    State.reset.kilnActs 0 = true ∧ (g State.reset).phys 0 = some 0 ∧
    run (.rodFail rod0 .test) State.reset (fun t => (g t).failed = [0] && (g t).due = [0] && (t.frame 0).actions = [.substitute]) = true ∧
    run (.rodFail rod0 .corrected) (withFiring firing0) (fun t => (t.part 0).rodCe = 1 && (t.frame 0).actions = []) = true ∧
    (withFiring firing0).kilnActs 0 = true ∧
    run (.rodFail rod0 .memory) State.reset (fun t => (g t).failed = [0]) = true ∧
    still (.rodFail rod0 .test) (State.reset.modGroup 0 0 fun g => { g with missing := [0] }) = true ∧
    run (.livenessProbe rod0 true) (misses 2) (fun t => (g t).missed = []) = true ∧
    run (.livenessProbe rod0 false) (misses 1) (fun t => (g t).missed = [(0, 2)] && (g t).failed = []) = true ∧
    run (.livenessProbe rod0 false) (misses 2) (fun t => (g t).failed = [0]) = true := by decide +kernel

/-- R428 to R430: tests of a free rod, of a held one, of a spare, and their results. -/
theorem test_rod_tests :
    let g := fun t : State => (t.frame 0).group 0
    let under := (State.reset.modGroup 0 0 fun g => { g with spares := [125], testing := [125] }).modPart 0 fun p =>
      { p with testState := 1, testOf := some (0, 0, 125) }
    RodId.ofRef 0 = rod0 ∧
    run (.rodTestStart 0 0x10000) State.reset (fun t => (t.part 0).testState = 1 && (t.part 0).testOf = some (0, 0, 0) &&
      (g t).testing = [0]) = true ∧
    run (.rodTestStart 0 0x10000) (withFiring firing0) (fun t => (t.part 0).testRefused && (t.part 0).testState = 0) = true ∧
    (g State.reset).spares.contains 125 = true ∧
    run (.spareRodTest 0 0 125) State.reset (fun t => (g t).testing = [125]) = true ∧ (g under).posOf 125 = none ∧
    run (.rodTestDone 0 0 125 true) under (fun t => (t.part 0).testState = 2 && (g t).spares = [125]) = true ∧
    run (.rodTestDone 0 0 125 false) under (fun t => (t.part 0).testState = 3 && (g t).spares = [] && (g t).failed = [125]) = true := by
  decide +kernel

/-! ## Links and the fabric -/

/-- Link 0 of frame 0 with a change, up in L0. -/
def link0 (k : Nat) (g : Link → Link) : State := State.reset.modLink 0 k fun l => g { l with state := 2 }

/-- A flit of type 1 with an FSEQ. -/
def flit0 (fseq : BitVec 12) (good : Bool) : Flit := ⟨1, 0, false, fseq, 0, 0xFFF, 0, [1, 2], 3, good⟩

/-- R368 to R370: the flit after the last good one, FSEQ wrapping, is accepted; another makes one NAK; a bad one is counted. -/
theorem test_flit_receive :
    let s := link0 0 fun l => { l with lastGood := 0xFFF }
    let l := fun t : State => (t.frame 0).link 0
    s.linksUp 0 = true ∧ (l s).up = true ∧
    run (.flitReceive 0 0 (flit0 0 true)) s (fun t => (l t).lastGood = 0 && (l t).received = [(0, [1, 2])] && (l t).fecCorr = 3) = true ∧
    run (.flitReceive 0 0 (flit0 2 true)) s (fun t => (l t).naks = [0xFFF] && (l t).received = [] && (l t).nakSent) = true ∧
    run (.flitReceive 0 0 (flit0 0 false)) s (fun t => (l t).crcErrs = 1 && (l t).received = [] && (l t).lastGood = 0xFFF) = true := by
  decide +kernel

/-- R370, R373: the flits after the one that a NAK names go out again; the eighth time the link retrains, as on LINK_RETRAIN. -/
theorem test_nak :
    let q := fun (n : BitVec 12) r => (⟨n, 1, 0, [], r⟩ : SentFlit)
    let s := fun r => link0 0 fun l => { l with replay := [q 4 0, q 5 r] }
    let l := fun t : State => (t.frame 0).link 0
    run (.nak 0 0 4) (s 6) (fun t => (l t).replay = [q 5 7] && (l t).wire.length = 1 && (l t).replays = 1 && (l t).state = 2) = true ∧
    run (.nak 0 0 4) (s 7) (fun t => (l t).state = 1 && (l t).retrains = 1) = true ∧
    run (.linkRetrain 0 3) (link0 3 id) (fun t => ((t.frame 0).link 3).state = 1 && !(t.frame 0).streamUp) = true := by decide +kernel

/-- R2, R368: a flit of type 1 on VC 2, FSEQ 0x123, that acknowledges 0x456 and returns 7 credits of VC 1, written out. -/
theorem test_flit_layout :
    let q : SentFlit := ⟨0x123, 1, 2, [0xAA, 0xBB], 0⟩
    let bs := flitBytes q false 1 0x456 7
    (bs.take 8 = [0x21, 0x23, 0x11, 0x56, 0x04, 7, 0xAA, 0xBB] ∧ bs.length = 256) ∧
    ((({ (link0 0 id).frame 0 |>.link 0 with nextFseq := 0xFFF } : Link).emit q).replay.map (·.fseq) = [0xFFF]) := by decide +kernel

/-- R372: four lanes, two, one; a twin link of the wrong peer is MISWIRED, of the right one up. -/
theorem test_link_training :
    let peer : PeerIdent := ⟨7, 0, 3, true⟩
    let s := { paired 1 with twin := { (paired 1).twin with peer := 7 } }
    let l := fun (t : State) k => (t.frame 0).link k
    let trained := s.modLink 0 3 fun l => { l with state := 1, lanes := 4 }
    (l State.reset 0).up = false ∧
    run (.linkTraining 0 0 4 ⟨9, 1, 0, false⟩) State.reset (fun t => (l t 0).state = 2 && (l t 0).peer = ⟨9, 1, 0, false⟩) = true ∧
    run (.linkTraining 0 0 2 ⟨9, 1, 0, false⟩) State.reset (fun t => (l t 0).state = 3) = true ∧
    run (.linkTraining 0 0 1 ⟨9, 1, 0, false⟩) State.reset (fun t => (l t 0).state = 1 && (l t 0).lanes = 1) = true ∧
    trained.twinPeer 0 peer = true ∧
    run (.ident 0 3 peer) trained (fun t => (l t 3).state = 2 && (t.frame 0).streamUp) = true ∧
    run (.ident 0 3 ⟨8, 0, 3, true⟩) trained (fun t => (l t 3).state = 4) = true := by decide +kernel

/-- Module 5 with window 1 of partition 0, 64 KiB at 0, which module 6 may read and write; and window 2, which takes carry
operations. -/
def served : State :=
  let s := mapped (withTable State.reset)
  { s with fabric := { s.fabric with
    moduleId := 5, idSet := true,
    windows := [(1, ⟨true, true, false, false, 6, 0, 0, 0x10000⟩), (2, ⟨true, true, true, true, 0, 0, 0, 0⟩)],
    winPins := [(1, [⟨0, ⟨0, .h, 0x40000000⟩, true⟩])],
    routes := [(6, BitVec.ofNat 64 (1 + 16 + 2 ^ 14 * 63 + 2 ^ 20 * 63 + 2 ^ 26 * 63))] } }

/-- A request of module 6 to a window. -/
def txn0 (window offset length : Nat) (data : List Byte) : Txn := ⟨0, 5, 6, window, offset, length, 9, true, data⟩

/-- R285, R286: the last bytes of the window are written and read; one byte more, another sender or another window is rejected; a
carry window takes one operation. -/
theorem test_windows :
    let rejects := fun t : State => (t.frame 0).counters.winRejects
    served.arrives (txn0 1 0xFFFC 4 []) = true ∧ served.farTraffic (txn0 1 0 4 []) = false ∧
    run (.txnWrite 0 (txn0 1 0xFFFC 4 [1, 2, 3, 4])) served (fun t => t.devNat ⟨0, .h, 0x4000FFFC⟩ 4 = 0x04030201 && rejects t = 0) = true ∧
    run (.txnWrite 0 (txn0 1 0xFFFD 4 [1, 2, 3, 4])) served (fun t => rejects t = 1) = true ∧
    run (.txnRead 0 (txn0 1 0xFFFC 4 []) []) served (fun t => rejects t = 0) = true ∧
    run (.txnRead 0 (txn0 7 0 4 []) []) served (fun t => rejects t = 1) = true ∧
    run (.txnRead 0 { txn0 1 0 4 [] with src := 8 } []) served (fun t => rejects t = 1) = true ∧
    run (.txnRead 0 (txn0 1 0xFFFC 4 []) []) { served with mem := { served.mem with poisoned := [⟨0, .h, 0x40000000 / 64 + 1023⟩] } }
      (fun t => (t.frame 0).counters.poisonReads = 1) = true ∧
    opLength listedAdd = some 64 ∧
    run (.txnWrite 0 (txn0 2 0 64 listedAdd)) served (fun t => ((t.frame 0).carryUnit 1).length = 1) = true := by decide +kernel

/-- R376, R378: a response closes its transaction; one without a response is counted; a transaction goes on to link 0, or is counted
where no route is VALID. -/
theorem test_transactions :
    let s := { served with fabric := { served.fabric with outstanding := [⟨9, 1, rod0, none, 0, 0⟩] } }
    run (.txnResp (txn0 0 0 0 [])) s (fun t => t.fabric.outstanding = []) = true ∧
    run (.fabricTimeoutExpire 9) s (fun t => t.fabric.outstanding = [] && t.fabric.timeouts = 1) = true ∧
    served.routeLink 6 0 = some 0 ∧ served.routeLink 7 0 = none ∧
    run (.txnForward 0 { txn0 0 0 4 [] with dst := 6 } true) served (fun t => ((t.frame 0).link 0).queue.length +
      ((t.frame 0).link 0).replay.length = 1) = true ∧
    run (.txnForward 0 { txn0 0 0 4 [] with dst := 7 } true) served (fun t => t.fabric.noRoute = 1) = true := by decide +kernel

/-! ## Power, clock, reset, firmware -/

/-- R389, R391, R393: RESET# and a thermal trip hold the module at step 3 and mark their cause; the release with the other source
asserted leaves it there. -/
theorem test_reset_sources :
    let s := { State.reset with pending := [Instr.clkLoss] }
    let held := fun t : State => t.seqr.phase = .step3 && t.master.none && t.ka.countModule = 1 && t.pending = [Instr.clkLoss]
    s.sampled = true ∧ s.sourceHeld = false ∧ s.ka.bootHold = false ∧
    run .resetPin s (fun t => held t && t.ka.resetPin &&
      run (.thermalTrip .package) t (fun u => u.seqr.thermal && run (.resetPinRelease []) u (fun v =>
        v.seqr.phase = .step3 && !v.seqr.resetPin && v.seqr.thermal))) = true ∧
    run (.thermalTrip .junction) s (fun t => held t && t.ka.thermal) = true ∧
    run (.moduleReset 0xA5C2 [] true) s (fun t => t.smbus.result = 2) = true ∧
    run (.moduleReset 0xA5C3 [] true) { s with ka := { s.ka with bootHold := true } } (fun t => held t && t.ka.swFull) = true := by
  decide +kernel

/-- A module without power, with and without its clock. -/
def unpowered (clock : Bool) : State :=
  { State.reset with seqr := { State.reset.seqr with v48 := false, clock := clock, fresh := false, phase := .off } }

/-- R389, R390, R472, R473: power and clock come and go; the keep-alive domain stays while the supercapacitor or AUX feeds it. -/
theorem test_power_and_clock :
    let ka := fun t : State => { t with seqr := { t.seqr with supercap := false, aux := false } }
    let hold := fun t : State => { t with ka := { t.ka with bootHold := true } }
    (unpowered true).sourceHeld = false ∧ (unpowered true).seqr.kaUp = true ∧
    run (.powerOn []) (unpowered false) (fun t => t.seqr.phase = .step1 && t.seqr.v48) = true ∧
    run (.powerOn []) (hold (unpowered true)) (fun t => t.seqr.phase = .step3 && t.ka.por && t.ka.countModule = 1) = true ∧
    run .powerLoss State.reset (fun t => t.seqr.phase = .off && !t.seqr.v48) = true ∧
    run .powerLoss (ka State.reset) (fun t => !t.seqr.kaUp) = true ∧
    run .clkLoss State.reset (fun t => t.seqr.phase = .step1 && t.ka.clkLoss && t.ka.countModule = 0 &&
      run (.clkReturn []) (hold t) (fun u => u.seqr.phase = .step3 && u.seqr.clock)) = true ∧
    run .auxValid { unpowered true with seqr := { (unpowered true).seqr with kaUp := false } } (fun t => t.seqr.kaUp && t.ka = KeepAlive.reset) = true ∧
    run .keepAliveLoss (unpowered true) (fun t => !t.seqr.kaUp) = true ∧ still .keepAliveLoss State.reset = true := by decide +kernel

/-- R389: with the clock stopped a source changes only its pin. -/
theorem test_stopped_clock :
    let s := { State.reset with seqr := { State.reset.seqr with clock := false, phase := .step1 } }
    run .resetPin s (fun t => t.seqr.resetPin && t.seqr.phase = .step1) = true ∧
    run (.twinFenceIn false) s (fun t => t.seqr.twinFence && t.ka = s.ka) = true ∧
    run (.clkReturn []) { s with seqr := { s.seqr with resetPin := true } } (fun t => t.seqr.phase = .step3 && t.ka.resetPin) = true := by
  decide +kernel

/-- A boot of a frame whose ramp fails. -/
def badRamp : BootFrame := ⟨0, 0, false, true, true, false, [], [], 700⟩

/-- R392, R397: frame 1 is fenced, its bead is gone and its memory stays; its ramp fails, so it stays fenced. -/
theorem test_fence_and_reset :
    let b : BeadId := ⟨1, 0, 0, 0⟩
    let s := ((State.reset.writeScratch b 0 [5]).setBead b { Bead.reset with exc := 1 }).pokeDev ⟨1, .h, 64⟩ [6]
    s.hasMaster = true ∧ s.framePort 1 = none ∧ s.bayFrame .a = 0 ∧ s.bayFrame .b = 18 ∧
    ((List.range 4).all fun n => !s.holdsShadow n 1) = true ∧
    run (.fenceAndReset 1 0 badRamp) s (fun t => (t.frame 1).fenced && inMask t.ka.fenceFrames 1 && t.ka.countFrame = 1 &&
      t.bead b = Bead.reset && t.scratchNat b 0 1 = 0 && t.devNat ⟨1, .h, 64⟩ 1 = 6) = true ∧
    still (.fenceAndReset 1 0 badRamp) { s with master := { s.master with none := true } } = true := by decide +kernel

/-- The header of a good image (R402). -/
def form0 : FwForm := ⟨0x4E565250, 1, 1, 0, 4096, 0⟩

/-- R391, R404, R405: the watchdog starts the boot ROM again, the kiln returns; firmware confirms its TRIAL slot. -/
theorem test_kilns :
    let k := fun t : State => (t.frame 1).kiln
    let trial := State.reset.modKiln 1 fun k => { k with slotB := ⟨2, 4, 0, 9, form0⟩, runningB := true }
    (k State.reset).slotA = FwSlot.valid ∧ (k State.reset).preferB = false ∧ State.reset.seqr.protMinSvn = 0 ∧
    run (.kilnWatchdog 1 false 0 BootFrame.good) State.reset (fun t => (k t).absent && (k t).verified && inMask t.ka.wdtFrames 1 &&
      run (.kilnReturn 1) t (fun u => !(k u).absent && !(k u).shown.absent)) = true ∧
    still (.kilnReturn 1) State.reset = true ∧
    run (.fwConfirm 1) trial (fun t => (k t).slotB = ⟨1, 4, 0, 9, form0⟩ && (k t).slotA = FwSlot.valid) = true ∧
    run (.fwConfirm 1) (State.reset.modKiln 1 fun k => { k with slotA := { FwSlot.valid with state := 2 } }) (fun t => (k t).slotA = FwSlot.valid) = true ∧
    still (.fwConfirm 1) State.reset = true := by decide +kernel

/-! ## Set-up registers, SMBus, calibration -/

/-- R409, R411, R445, R447, R449: sizes and alignment, staged writes at both addresses, late writes, ring bases, W1C bits, addresses
outside the map. -/
theorem test_register_write :
    let w := 0x1230000#64
    let part := fun t : State => t.part 0
    let at' := fun n => State.reset.modPart 0 fun p => { p with bank := { p.bank with state := n } }
    State.reset.portUp 0 = true ∧ State.reset.partExists 0 = true ∧
    run (.registerWrite 0 0x28 4 w) State.reset (fun t => (t.port 0).setupErrs = 1 && (part t).staged.shadowBase = 0) = true ∧
    run (.registerWrite 0 0xFFFF 8 w) State.reset (fun t => (t.port 0).setupErrs = 1) = true ∧
    run (.registerWrite 0 0x28 8 w) State.reset (fun t => (part t).staged.shadowBase = 0x123 && (part t).live.shadowBase = 0 &&
      (part t).bank.state = 1) = true ∧
    run (.registerWrite 0 0x8028 8 w) State.reset (fun t => (part t).staged.shadowBase = 0x123) = true ∧
    run (.registerWrite 0 0x28 8 w) (at' 6) (fun t => (part t).staged.shadowBase = 0 && (part t).bank.lateWrite) = true ∧
    still (.registerWrite 0 0x28 8 w) (State.reset.modPart 0 fun p => { p with frames := 0 }) = true ∧
    run (.registerWrite 0 0x1FC0 8 0x7FFF) State.reset (fun t => (t.ring 0 63).descBase = 7) = true ∧
    still (.registerWrite 0 0x1000 8 0x7FFF) (State.reset.modRing 0 0 fun r => { r with state := 1 }) = true ∧
    run (.registerWrite 0 0x478 8 0x80001) (State.reset.modPart 0 fun p => { p with capStatus := 0xC0001 })
      (fun t => (part t).capStatus = 0x40000) = true ∧
    still (.registerWrite 0 0 8 w) State.reset = true ∧ still (.registerWrite 0 0x7000 8 w) State.reset = true := by decide +kernel

/-- A module without a kiln master. -/
def masterless : State := { State.reset with master := { State.reset.master with none := true } }

/-- STATUS after a command. -/
def status (n : Nat) (i : Instr) (s : State) : Bool := run i s fun t => t.smbus.result = n

/-- R474 to R476: a wrong PEC is STATUS 3, a write without a master 4, a busy STATUS discards. -/
theorem test_smbus_status :
    let busy := { State.reset with smbus := { State.reset.smbus with result := 1 } }
    State.reset.seqr.kaUp = true ∧ State.reset.smbus.result = 0 ∧ State.reset.master.moving = false ∧
    status 3 (.regWrite 0x60B0 1 false) State.reset = true ∧ status 3 (.calWrite [1] false) State.reset = true ∧
    status 3 (.mbCommit false) State.reset = true ∧ still (.mbDiscard false) busy = true ∧
    status 4 (.calWrite [1] true) masterless = true ∧ status 4 (.mbDiscard true) masterless = true ∧
    run .alertResponse { State.reset with smbus := { State.reset.smbus with alert := true } } (fun t => !t.smbus.alert) = true := by
  decide +kernel

/-- R475: STATUS and REG_READ read without another effect; REG_WRITE stages a module bank register; 0x0000 is not reached. -/
theorem test_smbus_registers :
    run .status State.reset (fun t => t.smbus.masterShown = BitVec.ofNat 64 State.reset.master.word) = true ∧
    run (.regRead 0 0x60B0) State.reset (fun t => t.smbus.data = 2048) = true ∧
    run (.regWrite 0x60B0 512 true) State.reset (fun t => t.mbStaged.stageMib = 512 && t.mbLive.stageMib = 2048 && t.mb.state = 1) = true ∧
    status 2 (.regWrite 0 1 true) State.reset = true := by decide +kernel

/-- R345, R349, R465: the layout's last byte may be staged, the one after it not; an entry of 80 bytes joins; what passed is
committed. -/
theorem test_module_bank :
    let s := State.reset
    let at' := fun n => { s with mb := { s.mb with state := n } }
    s.mb.writable = true ∧
    run (.mbLayout 0xC9F [3] true) s (fun t => Sparse.find t.mbStaged.layout 0xC9F = some 3 && t.mb.state = 1) = true ∧
    status 2 (.mbLayout 0xC9F [3, 4] true) s = true ∧
    run (.mbEntry (List.replicate 80 1) true) s (fun t => t.mbEntries.length = 1 && t.mb.entry = 1) = true ∧
    run (.mbCheck true) { s with mbEntries := [gwEntry (List.replicate 80 1)] } (fun t => t.mb.state = 4 && t.mb.reason = 1) = true ∧
    status 2 (.mbCommit true) s = true ∧
    run (.mbCommit true) (at' 3) (fun t => t.mb.state = 6 && t.smbus.result = 1 && (t.frame 19).actions = [.commit 4]) = true ∧
    run (.mbDiscard true) { at' 1 with mbEntries := [gwEntry []] } (fun t => t.mb.state = 0 && t.mbEntries = []) = true := by
  decide +kernel

/-- R349: another ALLOC_n_f_9 than 0 can be staged, and its check fails. -/
theorem test_layout_scrub :
    let s := State.reset.putLayout (0x20 + 4 * 9) [1]
    layoutAlloc s.stagedLayout 0 0 9 = 1 ∧ s.checkModule ≠ none := by decide +kernel

/-- R400, R392, R475: the protection commit needs a boot that waits; frame 20 does not exist. -/
theorem test_smbus_resets :
    let held := { State.reset with seqr := { State.reset.seqr with phase := .step3 } }
    held.sourceHeld = false ∧ status 2 (.protCommit [] true) State.reset = true ∧
    status 2 (.protCommit [] true) { held with seqr := { held.seqr with resetPin := true } } = true ∧
    status 2 (.frameReset 20 0 badRamp true) State.reset = true ∧
    run (.frameReset 1 0 badRamp true) State.reset (fun t => (t.frame 1).fenced && t.smbus.result = 0) = true := by decide +kernel

/-- R402, R405, R407: FW_STAGE, FW_PREFER and FW_ACTIVATE on kiln 1. -/
theorem test_smbus_firmware :
    let k := fun t : State => (t.frame 1).kiln
    State.reset.activateErr 1 = 7 ∧
    run (.fwStage 2 ⟨4, 0, 9, form0, 0⟩ true) State.reset (fun t => (k t).slotB = ⟨1, 4, 0, 9, form0⟩ && t.smbus.alert) = true ∧
    run (.fwStage 2 ⟨4, 0, 9, form0, 1⟩ true) State.reset (fun t => (k t).slotB.state = 3) = true ∧
    run (.fwPrefer 2 true) State.reset (fun t => (k t).preferB && !(k t).runningB) = true ∧
    run (.fwActivate 2 true) State.reset (fun t => t.smbus.result = 2 && (k t).shown.lastErr = 7 && !(k t).absent) = true := by
  decide +kernel

/-- R402: an image of another FORMAT, and one whose key slot is fused off, are rejected. R407: kilns 1 and 2 restart one at a time;
the master's kiln hands its role over first. -/
theorem test_activate :
    let k := fun t : State => (t.frame 1).kiln
    let ready := fun f (s : State) => s.modKiln f fun k => { k with slotB := FwSlot.valid }
    let s := State.reset |> ready 1 |> ready 2 |> ready State.reset.master.frame
    fwFormOk form0 = true ∧ fwFormOk { form0 with format := 2 } = false ∧
    run (.fwStage 2 ⟨4, 0, 9, { form0 with keySlot := 4 }, 0⟩ true) State.reset (fun t => (k t).slotB.state = 3) = true ∧
    State.reset.master.frame ≠ 1 ∧ s.activateErr 1 = 0 ∧ (s.frame 1).fenced = false ∧
    run (.fwActivate 6 true) s (fun t => t.smbus.result = 1 && t.activating = [1, 2] && (k t).absent && (k t).preferB &&
      !(t.frame 2).kiln.absent) = true ∧
    run (.fwActivate (1#20 <<< s.master.frame) true) s (fun t => t.smbus.result = 1 && t.master.moving &&
      t.activating = [s.master.frame]) = true ∧
    run (.fwActivate 0 true) s (fun t => t.smbus.result = 0 && t.activating = []) = true := by decide +kernel

/-- R440: bytes join the staged set; a set that is not one is refused. -/
theorem test_calibration :
    run (.calWrite [1, 2] true) State.reset (fun t => t.smbus.calStaged = [1, 2]) = true ∧ calOk [] 0 = false ∧
    status 2 (.calCommit true) State.reset = true := by decide +kernel

/-! ## Saggars -/

/-- A good cartridge of module 5. -/
def cart0 : Cartridge := ⟨77, true, true, true, some (5, 1), 100, []⟩

/-- Bay A in a state, with the cartridge, in module 5. -/
def bayed (n : Nat) (reason : Nat) : State :=
  let s := { State.reset with fabric := { State.reset.fabric with moduleId := 5, idSet := true } }
  s.setBay .a { s.bayA with state := n, reason := reason, cart := if n = 0 then none else some cart0, serial := 77 }

/-- R431, R432: how an inserted cartridge ends. -/
theorem test_saggar_insert :
    let ends := fun (c : Cartridge) (n r : Nat) => run (.saggarInsert .a c) (bayed 0 0) fun t => t.bayA.state = n && t.bayA.reason = r
    (bayed 0 0).kilnActs ((bayed 0 0).bayFrame .a) = true ∧
    ends cart0 3 0 = true ∧ ends { cart0 with certGood := false } 2 2 = true ∧ ends { cart0 with answers := false } 2 4 = true ∧
    ends { cart0 with signGood := false } 2 1 = true ∧ ends { cart0 with header := none } 2 3 = true := by decide +kernel

/-- R432, R435, R437: EJECT, ADOPT, and the ends of a drain, a rebuild and a removal. -/
theorem test_saggar_bays :
    let st := fun n => fun t : State => t.bayA.state = n
    let online := fun n => (bayed n 0).setBay .b { State.reset.bayB with state := 4 }
    run (.eject .a false) (online 4) (st 6) = true ∧ run (.eject .a false) (bayed 4 0) (fun t => st 4 t && t.bayRefused) = true ∧
    run (.eject .a true) (bayed 5 0) (st 6) = true ∧ run (.eject .a true) (bayed 2 0) (st 6) = true ∧
    run (.adopt .a) (bayed 2 3) (fun t => st 3 t && t.bayA.cart.map (fun c => c.header) = some (some (5, State.reset.twin.epoch))) = true ∧
    run (.adopt .a) (bayed 2 1) (st 2) = true ∧
    run (.saggarDrainDone .a) (bayed 6 0) (st 7) = true ∧
    run (.saggarRebuildDone .a []) (bayed 3 0) (st 4) = true ∧
    run (.saggarRemove .a) (bayed 7 0) (fun t => st 0 t && t.bayA.cart = none) = true := by decide +kernel

/-! ## The whole machine -/

/-- A step runs the front command, and an empty queue idles. -/
theorem test_step :
    step { State.reset with pending := [.clkLoss, .auxValid] } = exec .clkLoss { State.reset with pending := [.auxValid] } ∧
    step State.reset = .next State.reset ∧ State.reset.memOk = true :=
  ⟨rfl, rfl, by decide +kernel⟩

/-- R399, R469: FAULT# is low on a module without a master, and every pin is in its fuse state while a reset holds. -/
theorem test_pins :
    let held := { masterless with seqr := { masterless.seqr with phase := .step3 } }
    masterless.pin .fault = .low ∧ State.reset.pin .fault = .highZ ∧ held.pin .fault = .highZ ∧ held.pin .twFenceOut = .pullUp ∧
    ({ held with seqr := { held.seqr with tripped := true } } : State).pin .thermTrip = .low ∧
    ({ State.reset with bayA := { State.reset.bayA with state := 7 } } : State).pin (.bayRdy .a) = .high := by decide +kernel

/-! ## Long buffers: a calibration set that is accepted, and a layout that passes its check -/

theorem leNat_leBytes4 (n : Nat) (h : n < 2 ^ 32) : leNat (leBytes 4 n) = n := by
  simp only [leBytes, List.range, List.range.loop, List.map, leNat, BitVec.toNat_ofNat]
  omega

theorem crcBit_lt (c : Nat) (h : c < 2 ^ 32) : crcBit c < 2 ^ 32 := by
  unfold crcBit
  split
  · exact Nat.xor_lt_two_pow (by omega) (by decide)
  · omega

theorem crc32_lt (bs : List Byte) : crc32 bs < 2 ^ 32 := by
  have step : ∀ (l : List Byte) (c : Nat), c < 2 ^ 32 → l.foldl crcByte c < 2 ^ 32 := by
    intro l
    induction l with
    | nil => intro c h; exact h
    | cons b l ih =>
      intro c h
      apply ih
      have h0 : c ^^^ b.toNat < 2 ^ 32 := Nat.xor_lt_two_pow h (by have := b.isLt; omega)
      exact crcBit_lt _ (crcBit_lt _ (crcBit_lt _ (crcBit_lt _ (crcBit_lt _ (crcBit_lt _ (crcBit_lt _ (crcBit_lt _ h0)))))))
  exact Nat.xor_lt_two_pow (step bs _ (by decide)) (by decide)

/-- A field that is one part of a buffer. -/
theorem fieldAt_part (a b c : List Byte) (off n : Nat) (ha : a.length = off) (hb : b.length = n) :
    fieldAt (a ++ (b ++ c)) off n = leNat b := by
  rw [fieldAt, List.drop_left' ha, List.take_left' hb]

theorem leBytes_length (n v : Nat) : (leBytes n v).length = n := by simp [leBytes]

/-- A frame's record: 29 entries with the rate 700, 0x2BC. -/
def calBody : List Byte :=
  (List.range 2044).map fun i => if i < 232 ∧ i % 8 = 0 then 0xBC else if i < 232 ∧ i % 8 = 1 then 2 else 0
/-- With its CRC. -/
def calRec : List Byte := calBody ++ leBytes 4 (crc32 calBody)
/-- The records of some frames. -/
def calRecs (n : Nat) : List Byte := (List.replicate n calRec).flatten
/-- The header's first 60 bytes, for GENERATION 1. -/
def calHead : List Byte := leBytes 4 0x4C414343 ++ leBytes 2 1 ++ leBytes 2 1 ++ leBytes 4 1 ++ leBytes 48 0
/-- The set. -/
def calSet : List Byte := calHead ++ (leBytes 4 (crc32 (calHead ++ leBytes 4 0 ++ calRecs 20)) ++ calRecs 20)

theorem calBody_length : calBody.length = 2044 := by rw [calBody, List.length_map, List.length_range]
theorem calRec_length : calRec.length = 2048 := by rw [calRec, List.length_append, calBody_length, leBytes_length]
theorem calRecs_succ (n : Nat) : calRecs (n + 1) = calRec ++ calRecs n := by
  rw [calRecs, List.replicate_succ, List.flatten_cons, calRecs]
theorem calRecs_length (n : Nat) : (calRecs n).length = 2048 * n := by
  induction n with
  | zero => rfl
  | succ n ih => rw [calRecs_succ, List.length_append, calRec_length, ih]; omega
theorem calHead_length : calHead.length = 60 := by decide

theorem calRecs_at (n k : Nat) (h : k < n) : ((calRecs n).drop (2048 * k)).take 2048 = calRec := by
  induction n generalizing k with
  | zero => omega
  | succ n ih =>
    rw [calRecs_succ]
    cases k with
    | zero => exact List.take_left' calRec_length
    | succ k =>
      rw [show 2048 * (k + 1) = 2048 + 2048 * k by omega, ← List.drop_drop, List.drop_left' calRec_length]
      exact ih k (by omega)

theorem calSet_drop : calSet.drop 64 = calRecs 20 := by
  rw [calSet, show 64 = 60 + 4 by rfl, ← List.drop_drop, List.drop_left' calHead_length, List.drop_left' (leBytes_length _ _)]

theorem test_cal_record : calRecordOk calRec = true := by
  have h1 : calRec.take 0x7FC = calBody := List.take_left' calBody_length
  have h2 : fieldAt calRec 0x7FC 4 = crc32 calBody := by
    have h := fieldAt_part calBody (leBytes 4 (crc32 calBody)) [] 0x7FC 4 calBody_length (leBytes_length _ _)
    rwa [List.append_nil, leNat_leBytes4 _ (crc32_lt _)] at h
  have h3 : calRates calRec = List.replicate 29 700 := by decide +kernel
  simp only [calRecordOk, h1, h2, h3]
  decide

/-- R440: a set that CAL_COMMIT takes. -/
theorem test_cal_set : calOk calSet 0 = true := by
  have h0 : calSet.length = calBytes := by
    rw [calSet, List.length_append, List.length_append, calHead_length, leBytes_length, calRecs_length]; rfl
  have h1 : calSet.take 0x3C = calHead := List.take_left' calHead_length
  have h3 : fieldAt calSet 0x3C 4 = crc32 (calHead ++ leBytes 4 0 ++ calRecs 20) := by
    have h := fieldAt_part calHead (leBytes 4 (crc32 (calHead ++ leBytes 4 0 ++ calRecs 20))) (calRecs 20) 0x3C 4
      calHead_length (leBytes_length _ _)
    rwa [leNat_leBytes4 _ (crc32_lt _)] at h
  have h4 : fieldAt calSet 0 4 = 0x4C414343 ∧ fieldAt calSet 4 2 = 1 ∧ fieldAt calSet 6 1 = 1 ∧ fieldAt calSet 8 4 = 1 := by
    decide +kernel
  have h5 : ((List.range 20).all fun f => calRecordOk (calRecord calSet f)) = true := by
    rw [List.all_eq_true]
    intro f hf
    rw [calRecord, ← List.drop_drop, calSet_drop, calRecs_at 20 f (List.mem_range.mp hf)]
    exact test_cal_record
  have h6 : calSet.drop 0x40 = calRecs 20 := calSet_drop
  simp only [calOk, h0, h1, h6, h3, h4, h5]
  decide

/-! A module without partitions: every byte of its layout is 0, and the module bank passes its check. -/

/-- No partition exists. -/
def unparted : State := { State.reset with parts := [] }

theorem unparted_part (n : Nat) : unparted.part n = Machine.Part.none := rfl

theorem leNat_zeros (k : Nat) : leNat (List.replicate k 0) = 0 := by
  induction k with
  | zero => rfl
  | succ k ih => rw [List.replicate_succ, leNat, ih]; rfl

theorem fieldAt_zeros (m off n : Nat) : fieldAt (List.replicate m 0) off n = 0 := by
  rw [fieldAt, List.drop_replicate, List.take_replicate, leNat_zeros]

theorem unparted_byte (i : Nat) : unparted.layoutByte i = 0 := by
  have h1 : Machine.Part.none.frames.toNat + Machine.Part.none.share % 256 * 2 ^ 32 + Machine.Part.none.readFrom.toNat * 2 ^ 40 = 0 := by decide
  have h2 : ∀ f a, Machine.Part.none.allocOf f a = 0 := fun _ _ => rfl
  simp only [State.layoutByte, unparted_part, h1, h2, Nat.zero_div]
  split <;> rfl

theorem unparted_layout : unparted.stagedLayout = List.replicate 3232 0 := by
  have h : (fun i => (Sparse.find unparted.mbStaged.layout i).getD (unparted.layoutByte i)) = fun _ => (0 : Byte) := by
    funext i; rw [unparted_byte]; rfl
  rw [State.stagedLayout, h, List.map_const', List.length_range]

theorem layoutFrames_zeros (n : Nat) : layoutFrames (List.replicate 3232 0) n = 0 := fieldAt_zeros _ _ _
theorem layoutAlloc_zeros (n f a : Nat) : layoutAlloc (List.replicate 3232 0) n f a = 0 := fieldAt_zeros _ _ _

theorem unparted_resv (n f a : Nat) : unparted.resvUnits n f a = 0 := by
  have h1 : unparted.firingUnits n 0 f a = 0 := rfl
  have h2 : Machine.Part.none.winCarryOf f = 0 := rfl
  simp only [State.resvUnits, unparted_part, h1, h2]
  split <;> rfl

theorem unparted_alloc (f a : Nat) : unparted.allocBad (List.replicate 3232 0) f a = false := by
  have h0 : ∀ k : Nat, ¬ k < 0 := Nat.not_lt_zero
  simp only [State.allocBad, layoutAlloc_zeros, unparted_resv, h0]
  split <;> rfl

/-- R349, R465: CHECK of the module bank finds nothing. -/
theorem test_module_check : unparted.checkModule = none ∧ unparted.seqr.kaUp = true ∧ unparted.smbus.result = 0 ∧
    unparted.hasMaster = true ∧ unparted.master.moving = false ∧ unparted.mb.writable = true := by
  refine ⟨?_, by decide⟩
  have h1 : layoutRangesOk (List.replicate 3232 0) = true := by
    simp only [layoutRangesOk, layoutFrames_zeros, fieldAt_zeros]; decide
  have h2 : unparted.layoutShapeOk (List.replicate 3232 0) = true := by
    simp only [State.layoutShapeOk, layoutFrames_zeros]; decide
  have h3 : (List.range 4).filter (fun n => decide (layoutFrames (List.replicate 3232 0) n ≠ (unparted.part n).frames.toNat)) = [] := by
    simp only [layoutFrames_zeros, unparted_part]; decide
  have h4 : ((List.range 20).any fun f => (List.range 10).any fun a => unparted.allocBad (List.replicate 3232 0) f a) = false := by
    simp only [unparted_alloc]; decide
  have h : unparted.layoutReason (List.replicate 3232 0) = none := by
    simp only [State.layoutReason, h1, h2, h3, h4]; rfl
  unfold State.checkModule
  rw [unparted_layout, h]
  rfl

/-! The choice of R246 where nothing is in use. -/

/-- Channel 3 of frame 0 of a module without partitions is out, its choice not made. -/
def choosing : State := unparted.modFrame 0 fun x => { x with mem := { x.mem with chOut := [3], choosing := [.channel 3] } }

theorem choosing_part (n : Nat) : choosing.partExists n = false := rfl

theorem choosing_free (p : Nat) : choosing.pageInUse 0 .h p = false := by
  have h1 : choosing.slotNamed 0 .h (p * 1024) 1024 none = false := rfl
  have h2 : choosing.slotHeld 0 .h (p * 1024) 1024 none = false := rfl
  simp only [State.pageInUse, h1, h2, choosing_part, Bool.false_and, Bool.false_or]
  decide

theorem test_choice : choosing.movesOk (choosing.retireOf 0 (.channel 3) []) = true ∧ choosing.kilnActs 0 = true := by
  refine ⟨?_, by decide +kernel⟩
  have h1 : choosing.targetsOk (choosing.retireOf 0 (.channel 3) []) = true := rfl
  have h2 : ∀ l : List Nat, l.filter (fun p => choosing.pageInUse 0 .h p && !choosing.inLargePage 0 .h p &&
      !([] : List (Nat × Nat)).any fun m => decide (m.1 = p)) = [] := by
    intro l
    simp only [choosing_free, Bool.false_and]
    simp
  unfold State.movesOk
  simp only [h1, Bool.true_and, Bool.or_eq_true, decide_eq_true_eq]
  exact Or.inl (h2 _)

end Sys2Proof.Tests
end

section
/-! SUPPORT. Writes of set-up registers through a port: what REGISTER_WRITE reaches, and O51. -/

namespace Sys2Proof.Machine

/-! ## Units that a replacement leaves alone -/

theorem OnlyFrame.setFrame (s : State) (f : Nat) (x : Frame) : OnlyFrame f s (s.setFrame f x) :=
  ⟨rfl, fun _ h => s.frame_setFrame_ne x h.symm⟩

theorem OnlyPort.setPort (s : State) (p : Nat) (x : Port) : OnlyPort p s (s.setPort p x) :=
  ⟨rfl, fun _ h => s.port_setPort_ne x h.symm⟩

theorem OnlyPart.setPart (s : State) (n : Nat) (x : Part) : OnlyPart n s (s.setPart n x) :=
  ⟨rfl, fun _ h => s.part_setPart_ne x h.symm⟩

theorem OnlyRing.modRing (s : State) (p q : Nat) (g : Ring → Ring) : OnlyRing p q s (s.modRing p q g) := by
  refine ⟨OnlyPort.setPort s p _, by simp [Port.setRing], fun k hk => ?_⟩
  simp [State.ring, State.ring_setRing_ne _ _ hk.symm]

theorem State.ring_modRing (s : State) (p q : Nat) (g : Ring → Ring) : (s.modRing p q g).ring p q = g (s.ring p q) := by
  simp [State.ring]

/-! ## REGISTER_WRITE -/

/-- Through a port that is up, an aligned write of 8 B goes to the register map and any other write is counted (R445). -/
theorem exec_registerWrite {p off : Nat} (size : Nat) (w : Word64) {s : State} (hp : portOk p = true)
    (hoff : off < 0x10000) (hup : s.portUp p = true) :
    exec (.registerWrite p off size w) s = .next (if size = 8 ∧ off % 8 = 0 then s.writeBar p off w else s.setupErr p) := by
  show execRegisterWrite p off size w s = _
  simp [execRegisterWrite, hp, hoff, hup, within]

/-- The bank register at 0x0028 is reached at its live and at its staged address, and in a partition that exists alone (R409, R447). -/
theorem State.writeBar_shadowBase (s : State) (p : Nat) (w : Word64) {off : Nat} (h : off = 0x0028 ∨ off = 0x8028) :
    s.writeBar p off w = if s.partExists p then s.stageBank p 0x0028 w else s := by
  rcases h with rfl | rfl <;> simp [State.writeBar, bankOffset]

/-- A bank that is neither checked nor committed takes the value into its staged copy (R409, R411). -/
theorem State.stageBank_shadowBase_writable (s : State) (p : Nat) (w : Word64) (h : (s.part p).bank.writable = true) :
    s.stageBank p 0x0028 w = s.setPart p { s.part p with
      staged := { (s.part p).staged with shadowBase := w.extractLsb' 16 36 }, bank := (s.part p).bank.written } := by
  simp [State.stageBank, bankValueOk, h, BankRegs.put]

/-- During a CHECK or a COMMIT the write shows in LATE_WRITE alone (R411). -/
theorem State.stageBank_shadowBase_late (s : State) (p : Nat) (w : Word64) (h : (s.part p).bank.writable = false) :
    s.stageBank p 0x0028 w = s.setPart p { s.part p with bank := { (s.part p).bank with lateWrite := true } } := by
  simp [State.stageBank, bankValueOk, h]

/-- The first register of ring `q` (R455). -/
theorem State.writeBar_descBase (s : State) (p : Nat) (w : Word64) {q : Nat} (hq : q < 64) :
    s.writeBar p (0x1000 + 64 * q) w = s.modRing p q fun r => r.put (s.port p).cxl 0 w := by
  have hbank : bankOffset (0x1000 + 64 * q) = false := by
    simp [bankOffset]
    omega
  have hring : (0x1000 + 64 * q - 0x1000) / 64 = q := by omega
  have hreg : (0x1000 + 64 * q) % 64 = 0 := by omega
  rw [State.writeBar, hbank, if_neg (by simp), if_neg (by omega), if_neg (by omega), if_neg (by omega), if_pos (by omega),
    hring, hreg]

theorem Ring.put_descBase (r : Ring) (cxl : Bool) (w : Word64) :
    r.put cxl 0 w = if r.state = 0 then { r with descBase := w.extractLsb' 12 52 } else r := by
  by_cases h : r.state = 0 <;> simp [Ring.put, h]

/-- CAP_STATUS: bits clear where 1 is written. -/
theorem State.writeBar_capStatus (s : State) (p : Nat) (w : Word64) (h : s.partExists p = true) :
    s.writeBar p 0x0478 w = s.setPart p { s.part p with capStatus := (s.part p).capStatus &&& ~~~(w.setWidth 20) } := by
  simp [State.writeBar, bankOffset, h, State.writePartReg]

theorem State.writeBar_absent (s : State) (p : Nat) (w : Word64) (h : s.partExists p = false) :
    s.writeBar p 0x0588 w = s := by
  simp [State.writeBar, bankOffset, h]

/-- PORT_STATUS is read only, and no register is at 0x7000. -/
theorem State.writeBar_unlisted (s : State) (p : Nat) (w : Word64) {off : Nat} (h : off = 0x0000 ∨ off = 0x7000) :
    s.writeBar p off w = s := by
  rcases h with rfl | rfl <;> simp [State.writeBar, bankOffset, State.writePortReg]

/-- Settles O51: each register's clause is its write's own lemma, and a replacement of one unit leaves the others. -/
theorem setupRegistersTakeWrites : Obligations.SetupRegistersTakeWrites := by
  intro p w s hp hup
  have hwrite : ∀ off, off < 0x10000 → off % 8 = 0 → exec (.registerWrite p off 8 w) s = .next (s.writeBar p off w) :=
    fun off hoff hal => (exec_registerWrite 8 w hp hoff hup).trans (by simp [hal])
  refine ⟨?_, ?_, ?_, ?_, ?_, ?_⟩
  · intro off size hoff hbad
    refine ⟨s.setupErr p, ?_, OnlyPort.setPort s p _, by simp [State.setupErr]⟩
    rw [exec_registerWrite size w hp hoff hup, if_neg (by omega)]
  · intro hex off hoff
    have hrun : exec (.registerWrite p off 8 w) s = .next (s.stageBank p 0x0028 w) := by
      rw [hwrite off (by omega) (by omega), s.writeBar_shadowBase p w hoff, if_pos hex]
    constructor
    · intro hcheck hcommit
      have hw : (s.part p).bank.writable = true := by simp [BankState.writable, hcheck, hcommit]
      rw [s.stageBank_shadowBase_writable p w hw] at hrun
      exact ⟨_, hrun, OnlyPart.setPart s p _, by simp [BankState.written]⟩
    · intro hbusy
      have hw : (s.part p).bank.writable = false := by
        rcases hbusy with h | h <;> simp [BankState.writable, h]
      rw [s.stageBank_shadowBase_late p w hw] at hrun
      exact ⟨_, hrun, OnlyPart.setPart s p _, by simp⟩
  · intro hex
    rw [hwrite 0x0028 (by omega) (by omega), hwrite 0x0588 (by omega) (by omega), s.writeBar_shadowBase p w (.inl rfl),
      s.writeBar_absent p w hex, if_neg (by simp [hex])]
    exact ⟨rfl, rfl⟩
  · intro q hq
    refine ⟨_, hwrite (0x1000 + 64 * q) (by omega) (by omega), ?_⟩
    rw [s.writeBar_descBase p w hq]
    exact ⟨OnlyRing.modRing s p q _, (s.ring_modRing p q _).trans (Ring.put_descBase _ _ w)⟩
  · intro hex
    refine ⟨_, hwrite 0x0478 (by omega) (by omega), ?_⟩
    rw [s.writeBar_capStatus p w hex]
    exact ⟨OnlyPart.setPart s p _, by simp⟩
  · rw [hwrite 0x0000 (by omega) (by omega), hwrite 0x7000 (by omega) (by omega), s.writeBar_unlisted p w (.inl rfl),
      s.writeBar_unlisted p w (.inr rfl)]
    exact ⟨rfl, rfl⟩

end Sys2Proof.Machine
end

section
/-! SUPPORT. Fields of little-endian byte strings; the end of a command, piece by piece: its fence, its record, its chain; and O5. -/

namespace Sys2Proof.Machine

/-! ## Fields of byte strings (R2) -/

theorem leBytes_succ (n v : Nat) : leBytes (n + 1) v = BitVec.ofNat 8 v :: leBytes n (v / 256) := by
  simp [leBytes, List.range_succ_eq_map, Function.comp_def, Nat.pow_succ', Nat.div_div_eq_div_mul]

@[simp] theorem leNat_leBytes (n v : Nat) : leNat (leBytes n v) = v % 256 ^ n := by
  induction n generalizing v with
  | zero => simp [leBytes, leNat, Nat.mod_one]
  | succ n ih =>
    have hpow : 256 ^ (n + 1) = 256 * 256 ^ n := Nat.pow_succ'
    rw [leBytes_succ, leNat, ih, BitVec.toNat_ofNat, hpow]
    exact Nat.mod_mul.symm

/-- A field that lies in the second part of a string. -/
theorem fieldAt_append_right {a : List Byte} (b : List Byte) {off : Nat} (n : Nat) (h : a.length ≤ off) :
    fieldAt (a ++ b) off n = fieldAt b (off - a.length) n := by
  rw [fieldAt, List.drop_append, List.drop_eq_nil_of_le h, List.nil_append, ← fieldAt]

/-- A field that lies in the first part of a string. -/
theorem fieldAt_append_left {a : List Byte} (b : List Byte) {off n : Nat} (h : off + n ≤ a.length) :
    fieldAt (a ++ b) off n = fieldAt a off n := by
  rw [fieldAt, List.drop_append_of_le_length (by omega), List.take_append_of_le_length (by simp; omega), ← fieldAt]

theorem fieldAt_leBytes (n v : Nat) : fieldAt (leBytes n v) 0 n = v % 256 ^ n := by
  rw [fieldAt, List.drop_zero, List.take_of_length_le (by simp), leNat_leBytes]

theorem bit_le (b : Bool) : bit b ≤ 1 := by cases b <;> simp [bit]

/-- R308: the fields of a completion record. -/
theorem CplRecord.fieldAt_bytes (r : CplRecord) (phase : Bool) :
    fieldAt (r.bytes phase) 0 2 = r.tag.toNat ∧ fieldAt (r.bytes phase) 2 2 = r.seq.toNat ∧
    fieldAt (r.bytes phase) 4 1 = r.code.toNat + bit r.chained * 16 ∧ fieldAt (r.bytes phase) 5 1 = r.detail.toNat ∧
    fieldAt (r.bytes phase) 6 1 = r.depth.toNat ∧ fieldAt (r.bytes phase) 7 1 = r.opcode.toNat ∧
    fieldAt (r.bytes phase) 8 8 = r.result.toNat ∧ fieldAt (r.bytes phase) 16 2 = r.fetched.toNat ∧
    fieldAt (r.bytes phase) 18 2 = 0 ∧ fieldAt (r.bytes phase) 20 4 = r.elapsedUs.toNat ∧
    fieldAt (r.bytes phase) 24 4 = 0 ∧ fieldAt (r.bytes phase) 28 4 = bit phase * 2 ^ 31 := by
  have hchained := bit_le r.chained
  have hphase := bit_le phase
  simp only [CplRecord.bytes]
  simp [fieldAt_append_right, fieldAt_append_left, fieldAt_leBytes]
  refine ⟨?_, ?_, ?_⟩ <;> omega

/-! ## The end of a command (R303, R304, R308 to R310) -/

/-- A command in flight has no record held. -/
theorem held_any_of_inFlight {s : State} {c : Nat} {x : Cmd} (h : InFlight s c x) :
    (s.ring x.port x.ring).held.any (fun r => decide (r.1 = c)) = false := by
  simpa using h.2.2

theorem complete_of_inFlight {s : State} {c : Nat} {x : Cmd} (h : InFlight s c x) (code detail : Nat) (result : Word64) :
    s.complete c code detail result = s.finish x code detail result := by
  simp only [State.complete, h.1, held_any_of_inFlight h, Bool.false_eq_true, if_false]

/-- The fence of a command that completes with `code`. -/
def State.signalled (s : State) (x : Cmd) (code : Nat) : State :=
  if x.d.signals code then s.setFence x.port x.d.signalFence x.d.signalValue else s

/-- The chain of a command that completes with `code` is queued. -/
def State.withChain (s : State) (x : Cmd) (code : Nat) : State :=
  if x.d.chains code then
    s.modRing x.port x.ring fun g => { g with chains := g.chains ++ [(x.d.chainAddr, x.seq, x.depth + 1)] }
  else s

/-- A command other than FIRING_RUN ends with its fence, its record and its chain, in this order. -/
theorem State.finish_eq (s : State) {x : Cmd} (code detail : Nat) (result : Word64) (h : x.d.opcode ≠ 0x02) :
    s.finish x code detail result =
      ((s.signalled x code).record x ((s.signalled x code).cplRecord x code detail result)).tick.withChain x code := by
  simp only [State.finish, State.countRun, if_pos h]
  rfl

section Signal
variable (s : State) (x : Cmd) (code : Nat)

@[simp] theorem State.signalled_mem : (s.signalled x code).mem = s.mem := by unfold State.signalled; split <;> rfl
@[simp] theorem State.signalled_beads : (s.signalled x code).beads = s.beads := by unfold State.signalled; split <;> rfl
@[simp] theorem State.signalled_frames : (s.signalled x code).frames = s.frames := by unfold State.signalled; split <;> rfl
@[simp] theorem State.signalled_firings : (s.signalled x code).firings = s.firings := by unfold State.signalled; split <;> rfl
@[simp] theorem State.signalled_cmds : (s.signalled x code).cmds = s.cmds := by unfold State.signalled; split <;> rfl
@[simp] theorem State.signalled_port (p : Nat) : (s.signalled x code).port p = s.port p := by
  unfold State.signalled; split <;> rfl
@[simp] theorem State.signalled_ring (p q : Nat) : (s.signalled x code).ring p q = s.ring p q := by
  unfold State.signalled; split <;> rfl

@[simp] theorem State.withChain_mem : (s.withChain x code).mem = s.mem := by unfold State.withChain; split <;> rfl
@[simp] theorem State.withChain_beads : (s.withChain x code).beads = s.beads := by unfold State.withChain; split <;> rfl
@[simp] theorem State.withChain_frames : (s.withChain x code).frames = s.frames := by unfold State.withChain; split <;> rfl
@[simp] theorem State.withChain_firings : (s.withChain x code).firings = s.firings := by unfold State.withChain; split <;> rfl
@[simp] theorem State.withChain_cmds : (s.withChain x code).cmds = s.cmds := by unfold State.withChain; split <;> rfl
@[simp] theorem State.withChain_part (n : Nat) : (s.withChain x code).part n = s.part n := by
  unfold State.withChain; split <;> rfl
@[simp] theorem State.withChain_tx (p : Nat) : ((s.withChain x code).port p).tx = (s.port p).tx := by
  unfold State.withChain
  split
  · by_cases h : x.port = p
    · subst h; simp [Port.setRing]
    · simp [State.port_setPort_ne _ _ h]
  · rfl

/-- R304: the chain goes behind those that wait already, and the ring is otherwise as it was. -/
theorem State.withChain_ring : (s.withChain x code).ring x.port x.ring = { s.ring x.port x.ring with
    chains := if x.d.chains code then (s.ring x.port x.ring).chains ++ [(x.d.chainAddr, x.seq, x.depth + 1)]
      else (s.ring x.port x.ring).chains } := by
  unfold State.withChain
  split
  · simp [State.ring]
  · rfl

end Signal

/-- FENCE_SET (R303). -/
theorem State.fences_setFence (s : State) (n k j : Nat) (v : Word32) :
    Sparse.read 0#32 ((s.setFence n k v).part n).fences j =
      if j = k ∧ fencePast v (Sparse.read 0#32 (s.part n).fences k) = true then v
      else Sparse.read 0#32 (s.part n).fences j := by
  simp only [State.setFence, State.modPart_eq, State.part_setPart_same]
  by_cases hj : j = k
  · subst hj
    by_cases hv : v = Sparse.read 0#32 (s.part n).fences j
    · simp [← hv]
    · by_cases hpast : fencePast v (Sparse.read 0#32 (s.part n).fences j) = true <;> simp [hpast, hv]
  · split <;> simp [hj, Sparse.read_write_ne _ _ _ (Ne.symm hj)]

theorem State.fences_signalled (s : State) (x : Cmd) (code j : Nat) :
    Sparse.read 0#32 ((s.signalled x code).part x.port).fences j =
      if j = x.d.signalFence ∧ x.d.signals code = true ∧
          fencePast x.d.signalValue (Sparse.read 0#32 (s.part x.port).fences x.d.signalFence) = true then x.d.signalValue
      else Sparse.read 0#32 (s.part x.port).fences j := by
  unfold State.signalled
  by_cases h : x.d.signals code = true
  · simp [h, State.fences_setFence]
  · simp [h]

/-! ## The record of a command (R308 to R310) -/

@[simp] theorem State.tick_ring (s : State) (p q : Nat) : s.tick.ring p q = s.ring p q := rfl

theorem State.tx_modRing (s : State) (p q : Nat) (g : Ring → Ring) : ((s.modRing p q g).port p).tx = (s.port p).tx := by
  simp [Port.setRing]

section Record
variable (s : State) (x : Cmd) (r : CplRecord)

/-- The record is held for space. -/
def State.holdRecord : State := s.modRing x.port x.ring fun g => { g with held := g.held ++ [(x.id, r)] }

section PortLives
variable (hdown : x.down = none) (hport : (s.port x.port).state = 2 ∨ (s.port x.port).state = 3)
include hdown hport

/-- The record of a command whose port has not been down is posted, or held. -/
theorem State.record_eq : s.record x r =
    if (s.ring x.port x.ring).held = [] ∧ (s.ring x.port x.ring).hasSpace = true then s.postRecord x r
    else s.holdRecord x r := by
  have hup : ¬((s.port x.port).state = 0 ∨ (s.port x.port).state = 1) := by omega
  simp only [State.record, hdown, Option.isSome_none, Bool.false_or, decide_eq_true_eq, if_neg hup]
  rfl

theorem State.record_eq_post (hheld : (s.ring x.port x.ring).held = []) (hspace : (s.ring x.port x.ring).hasSpace = true) :
    s.record x r = s.postRecord x r := by
  rw [s.record_eq x r hdown hport, if_pos ⟨hheld, hspace⟩]

theorem State.record_eq_hold (hfull : (s.ring x.port x.ring).held ≠ [] ∨ (s.ring x.port x.ring).hasSpace = false) :
    s.record x r = s.holdRecord x r := by
  rw [s.record_eq x r hdown hport, if_neg]
  rintro ⟨hheld, hspace⟩
  rcases hfull with hne | hno
  · exact hne hheld
  · simp [hspace] at hno

/-- Whatever becomes of the record, no memory, bead, frame, firing or partition changes. -/
theorem State.record_keeps : (s.record x r).mem = s.mem ∧ (s.record x r).beads = s.beads ∧
    (s.record x r).frames = s.frames ∧ (s.record x r).firings = s.firings ∧ (s.record x r).parts = s.parts := by
  rw [s.record_eq x r hdown hport]
  split <;> exact ⟨rfl, rfl, rfl, rfl, rfl⟩

theorem State.record_chains : ((s.record x r).ring x.port x.ring).chains = (s.ring x.port x.ring).chains := by
  rw [s.record_eq x r hdown hport]
  split <;> simp [State.postRecord, State.holdRecord, State.leave, State.ring, State.port, State.setPort, Port.setRing, Port.ring]

end PortLives

theorem State.postRecord_cmds : (s.postRecord x r).cmds = s.cmds.filter fun y => decide (y.id ≠ x.id) := rfl

theorem State.postRecord_tx : ((s.postRecord x r).port x.port).tx = (s.port x.port).tx ++
    [.completion x.id ((s.ring x.port x.ring).cplAddr (s.ring x.port x.ring).cplPos)
      (r.bytes (decide ((s.ring x.port x.ring).cplPos / (s.ring x.port x.ring).size % 2 = 0)))] := by
  simp [State.postRecord, State.leave, State.port, State.setPort, Port.setRing]

theorem State.postRecord_ring : (s.postRecord x r).ring x.port x.ring = { s.ring x.port x.ring with
    cplPos := ((s.ring x.port x.ring).cplPos + 1) % 65536, inflight := (s.ring x.port x.ring).inflight - 1 } := by
  simp [State.postRecord, State.leave, State.ring, State.port, State.setPort, Port.setRing, Port.ring]

theorem State.holdRecord_cmds : (s.holdRecord x r).cmds = s.cmds := rfl

theorem State.holdRecord_tx : ((s.holdRecord x r).port x.port).tx = (s.port x.port).tx := s.tx_modRing _ _ _

theorem State.holdRecord_ring : (s.holdRecord x r).ring x.port x.ring =
    { s.ring x.port x.ring with held := (s.ring x.port x.ring).held ++ [(x.id, r)] } :=
  s.ring_modRing _ _ _

end Record

/-! ## What a completion leaves -/

section Completion
variable {s : State} {c : Nat} {x : Cmd} (code detail : Nat) (result : Word64)

/-- The record that the command of a completion gets: that of the state after its fence. -/
def State.endRecord (s : State) (x : Cmd) (code detail : Nat) (result : Word64) : CplRecord :=
  (s.signalled x code).cplRecord x code detail result

/-- A completion, seen whole: the fence, the record and the chain of the command. -/
theorem complete_eq_record (h : InFlight s c x) (hop : x.d.opcode ≠ 0x02) :
    s.complete c code detail result =
      ((s.signalled x code).record x (s.endRecord x code detail result)).tick.withChain x code :=
  (complete_of_inFlight h code detail result).trans (s.finish_eq code detail result hop)

variable (h : InFlight s c x) (hop : x.d.opcode ≠ 0x02) (hdown : x.down = none)
  (hport : (s.port x.port).state = 2 ∨ (s.port x.port).state = 3)
include h hop hdown hport

theorem complete_keeps : (s.complete c code detail result).mem = s.mem ∧ (s.complete c code detail result).beads = s.beads ∧
    (s.complete c code detail result).frames = s.frames ∧ (s.complete c code detail result).firings = s.firings := by
  obtain ⟨hmem, hbeads, hframes, hfirings, -⟩ :=
    (s.signalled x code).record_keeps x (s.endRecord x code detail result) hdown (by simpa using hport)
  rw [complete_eq_record code detail result h hop]
  simp [hmem, hbeads, hframes, hfirings]

theorem complete_fences (k : Nat) : Sparse.read 0#32 ((s.complete c code detail result).part x.port).fences k =
    Sparse.read 0#32 ((s.signalled x code).part x.port).fences k := by
  obtain ⟨-, -, -, -, hparts⟩ :=
    (s.signalled x code).record_keeps x (s.endRecord x code detail result) hdown (by simpa using hport)
  rw [complete_eq_record code detail result h hop, State.withChain_part, State.tick_part, State.part, hparts, ← State.part]

theorem complete_chains : ((s.complete c code detail result).ring x.port x.ring).chains =
    if x.d.chains code then (s.ring x.port x.ring).chains ++ [(x.d.chainAddr, x.seq, x.depth + 1)]
    else (s.ring x.port x.ring).chains := by
  rw [complete_eq_record code detail result h hop, State.withChain_ring, State.tick_ring,
    State.record_chains _ x _ hdown (by simpa using hport), State.signalled_ring]

/-- R309, R310: the record is posted at CPL_POS and the command leaves its place. -/
theorem complete_posts (hheld : (s.ring x.port x.ring).held = []) (hspace : (s.ring x.port x.ring).hasSpace = true) :
    let r := s.ring x.port x.ring
    let t := s.complete c code detail result
    (t.port x.port).tx = (s.port x.port).tx ++ [.completion c (r.cplAddr r.cplPos)
      ((s.endRecord x code detail result).bytes (decide (r.cplPos / r.size % 2 = 0)))] ∧
    t.cmds = (s.cmds.filter fun y => decide (y.id ≠ c)) ∧ (t.ring x.port x.ring).inflight = r.inflight - 1 ∧
    (t.ring x.port x.ring).cplPos = (r.cplPos + 1) % 65536 := by
  intro r t
  have ht : t = ((s.signalled x code).postRecord x (s.endRecord x code detail result)).tick.withChain x code := by
    rw [← (s.signalled x code).record_eq_post x _ hdown (by simpa using hport) (by simpa using hheld) (by simpa using hspace)]
    exact complete_eq_record code detail result h hop
  rw [ht]
  simp [State.postRecord_tx, State.postRecord_cmds, State.postRecord_ring, State.withChain_ring, h.2.1, r]

/-- R309: the record is held and the command keeps its place. -/
theorem complete_holds (hfull : (s.ring x.port x.ring).held ≠ [] ∨ (s.ring x.port x.ring).hasSpace = false) :
    let r := s.ring x.port x.ring
    let t := s.complete c code detail result
    t.cmds = s.cmds ∧ (t.port x.port).tx = (s.port x.port).tx ∧ (t.ring x.port x.ring).inflight = r.inflight ∧
    (t.ring x.port x.ring).held = r.held ++ [(c, s.endRecord x code detail result)] := by
  intro r t
  have ht : t = ((s.signalled x code).holdRecord x (s.endRecord x code detail result)).tick.withChain x code := by
    rw [← (s.signalled x code).record_eq_hold x _ hdown (by simpa using hport) (by simpa using hfull)]
    exact complete_eq_record code detail result h hop
  rw [ht]
  simp [State.holdRecord_tx, State.holdRecord_cmds, State.holdRecord_ring, State.withChain_ring, h.2.1, r]

end Completion

/-! ## The recheck of a completion ring (R309) -/

/-- A recheck of a ring that holds one record takes the doorbell word, and posts the record where there is space. -/
theorem exec_completionSpaceRecheck_one {p q c : Nat} (w : Word64) {s : State} {x : Cmd} {rec : CplRecord}
    (hr : ringOk p q = true) (hup : s.up = true) (hport : (s.port p).state = 2) (hheld : (s.ring p q).held = [(c, rec)])
    (hcmd : s.cmd c = some x) :
    let t := s.modRing p q fun r => r.takeDoorbell w
    exec (.completionSpaceRecheck p q w) s = .next (
      if ((s.ring p q).takeDoorbell w).hasSpace = true then
        (t.postRecord x { rec with fetched := (s.ring p q).fetchSeq }).modRing p q fun r => { r with held := [] }
      else t.modRing p q fun r => { r with held := [(c, rec)] }) := by
  intro t
  have hring : t.ring p q = (s.ring p q).takeDoorbell w := s.ring_modRing p q _
  have hheld' : (t.ring p q).held = [(c, rec)] := by rw [hring]; exact hheld
  have hcmd' : t.cmd c = some x := hcmd
  show execCompletionSpaceRecheck p q w s = _
  have hne : (s.ring p q).held ≠ [] := by simp [hheld]
  simp only [execCompletionSpaceRecheck, hr, hup, hport, hne, within, State.when, Bool.and_self, decide_true, ne_eq,
    not_false_eq_true, if_true]
  show Host.Outcome.next (t.writeHeld p q (t.ring p q).held) = _
  rw [hheld']
  simp only [State.writeHeld, hcmd', hring]
  rfl

/-! ## O5 -/

/-- Settles O5: a completion is its fence, its record (posted or held) and its chain; the record's bytes are read field by field;
a recheck posts the one record held where the word that it takes gives space. -/
theorem completionsArePosted : Obligations.CompletionsArePosted := by
  refine ⟨?_, ?_, ?_⟩
  · intro s c code detail result x h hop hdown hport r t cur signals chains g
    have hsignals : x.d.signals code = true ↔ signals := by simp [Desc.signals, signals]
    have hchains : x.d.chains code = true ↔ chains := by simp [Desc.chains, chains]
    have hfences := complete_fences code detail result h hop hdown hport
    obtain ⟨hmem, hbeads, hframes, hfirings⟩ := complete_keeps code detail result h hop hdown hport
    refine ⟨hmem, hbeads, hframes, hfirings, ?_, fun k hk => ?_, ?_, fun hheld hspace => ?_, fun hfull => ?_⟩
    · simp only [t, hfences, State.fences_signalled, hsignals, true_and, cur]
    · simp only [t, hfences, State.fences_signalled, hk, false_and, if_false]
    · simp only [g, t, complete_chains code detail result h hop hdown hport, hchains, r]
    · exact ⟨s.endRecord x code detail result, rfl, rfl, rfl, rfl, rfl, rfl, rfl, rfl, by simp [State.endRecord, State.cplRecord, r],
        complete_posts code detail result h hop hdown hport hheld hspace⟩
    · obtain ⟨hcmds, htx, hinflight, hheld⟩ := complete_holds code detail result h hop hdown hport hfull
      exact ⟨hcmds, htx, hinflight, _, rfl, rfl, rfl, hheld⟩
  · intro r phase at_
    obtain ⟨htag, hseq, hcode, hdetail, hdepth, hop, hresult, hfetched, hzero18, helapsed, hzero24, hphase⟩ := r.fieldAt_bytes phase
    have hlt : r.code.toNat < 16 := r.code.isLt
    have hchained := bit_le r.chained
    have hat : at_ 4 1 = r.code.toNat + bit r.chained * 16 := hcode
    exact ⟨r.length_bytes phase, htag, hseq, by omega, by omega, hdetail, hdepth, hop, hresult, hfetched, hzero18, helapsed,
      hzero24, hphase⟩
  · intro p q c w s x rec hr hup hport hheld hcmd hxp hxq hxc r
    subst hxp hxq hxc
    refine ⟨_, exec_completionSpaceRecheck_one w hr hup hport hheld hcmd, ?_⟩
    have hspaceEq : ((s.ring x.port x.ring).takeDoorbell w).hasSpace = r.hasSpace := rfl
    rw [hspaceEq]
    by_cases hspace : r.hasSpace = true
    · rw [if_pos hspace]
      simp only [State.ring_modRing, State.tx_modRing, State.postRecord_ring, State.postRecord_tx]
      exact ⟨fun _ => ⟨trivial, rfl, rfl⟩, fun hno => by simp [hspace] at hno, rfl, rfl⟩
    · rw [if_neg hspace]
      simp only [State.ring_modRing, State.tx_modRing]
      exact ⟨fun hyes => absurd hyes hspace, fun _ => ⟨trivial, rfl, trivial⟩, rfl, rfl⟩

end Sys2Proof.Machine
end

section
/-! SUPPORT. Links: the bytes of a flit, what a link that sends keeps, the twin lanes of a frame; and O47. -/

namespace Sys2Proof.Machine

/-- A command whose meaning is a change under a test runs where its units exist and the test passes. -/
theorem runs_of_when {i : Instr} {s : State} {ok b : Bool} {g : State → State} {P : State → Prop}
    (hexec : exec i s = within ok (s.when b g)) (hok : ok = true) (hb : b = true) (hP : P (g s)) : Runs i s P :=
  ⟨g s, by rw [hexec, hok, hb]; rfl, hP⟩

/-! ## Links of a frame -/

theorem OnlyFrame.trans {f : Nat} {s t u : State} (h : OnlyFrame f s t) (h' : OnlyFrame f t u) : OnlyFrame f s u := by
  obtain ⟨hrest, hframes⟩ := h
  obtain ⟨hrest', hframes'⟩ := h'
  refine ⟨?_, fun g hg => (hframes' g hg).trans (hframes g hg)⟩
  calc ({ u with frames := s.frames } : State) = { ({ u with frames := t.frames } : State) with frames := s.frames } := rfl
    _ = { t with frames := s.frames } := by rw [hrest']
    _ = s := hrest

theorem OnlyFrame.modLink (s : State) (f k : Nat) (g : Link → Link) : OnlyFrame f s (s.modLink f k g) :=
  OnlyFrame.setFrame s f _

@[simp] theorem Frame.link_setLink_same (x : Frame) (k : Nat) (l : Link) : (x.setLink k l).link k = l := by
  simp [Frame.link, Frame.setLink]

@[simp] theorem State.link_modLink (s : State) (f k : Nat) (g : Link → Link) :
    ((s.modLink f k g).frame f).link k = g ((s.frame f).link k) := by
  simp [State.modLink]

/-! ## A link that sends keeps what it has received and what it is -/

/-- A link but for what it sends: sequence, replay buffer, credits, queue, wire, credits to return. -/
def Link.heard (l : Link) : Link := { l with nextFseq := 0, replay := [], credits := [], queue := [], wire := [], owed := [] }

@[simp] theorem Link.idle_heard (l : Link) (nak : Bool) : (l.idle nak).heard = l.heard := rfl
@[simp] theorem Link.emit_heard (l : Link) (q : SentFlit) : (l.emit q).heard = l.heard := rfl
@[simp] theorem Link.idle_replay (l : Link) (nak : Bool) : (l.idle nak).replay = l.replay := rfl

theorem Link.pumpList_heard (l : Link) (blocked : List (BitVec 2)) (qs : List SentFlit) :
    (l.pumpList blocked qs).heard = l.heard := by
  induction qs generalizing l blocked with
  | nil => rfl
  | cons q qs ih =>
    rw [Link.pumpList]
    split
    · exact ih l (q.vc :: blocked)
    · exact (ih (l.emit q) blocked).trans (l.emit_heard q)

@[simp] theorem Link.pump_heard (l : Link) : l.pump.heard = l.heard := l.pumpList_heard [] l.queue

@[simp] theorem Link.answer_heard (l : Link) (before : BitVec 12) : (l.answer before).heard = l.heard := by
  unfold Link.answer
  dsimp only
  split <;> simp

@[simp] theorem Link.acked_heard (l : Link) (ack : BitVec 12) : (l.acked ack).heard = l.heard := by
  unfold Link.acked
  split <;> rfl

@[simp] theorem Link.returns_heard (l : Link) (x : Flit) : (l.returns x).heard = l.heard := l.acked_heard x.ack

/-- Flits that go out one after the other. -/
theorem Link.foldl_putFlit_heard (l : Link) (qs : List SentFlit) :
    (qs.foldl (fun l q => l.putFlit q false) l).heard = l.heard := by
  induction qs generalizing l with
  | nil => rfl
  | cons q qs ih => exact (ih (l.putFlit q false)).trans rfl

theorem Link.foldl_putFlit_replay (l : Link) (qs : List SentFlit) :
    (qs.foldl (fun l q => l.putFlit q false) l).replay = l.replay := by
  induction qs generalizing l with
  | nil => rfl
  | cons q qs ih => exact (ih (l.putFlit q false)).trans rfl

theorem Link.foldl_putFlit_wire_length (l : Link) (qs : List SentFlit) :
    (qs.foldl (fun l q => l.putFlit q false) l).wire.length = l.wire.length + qs.length := by
  induction qs generalizing l with
  | nil => rfl
  | cons q qs ih => rw [List.foldl_cons, ih]; simp [Link.putFlit]; omega

/-- With no credits to return a flit returns none. -/
theorem Link.putFlit_of_owed_nil {l : Link} (h : l.owed = []) (q : SentFlit) (nak : Bool) :
    l.putFlit q nak = { l with wire := l.wire ++ [flitBytes q nak 0 l.lastGood 0] } := by
  obtain ⟨⟩ := l
  subst h
  rfl

theorem Link.foldl_putFlit_wire {l : Link} (h : l.owed = []) (qs : List SentFlit) :
    (qs.foldl (fun l q => l.putFlit q false) l).wire = l.wire ++ qs.map fun q => flitBytes q false 0 l.lastGood 0 := by
  induction qs generalizing l with
  | nil => simp
  | cons q qs ih =>
    rw [List.foldl_cons, Link.putFlit_of_owed_nil h]
    exact (ih (l := { l with wire := l.wire ++ [flitBytes q false 0 l.lastGood 0] }) h).trans (by simp)

/-! ## FLIT_RECEIVE (R368 to R371) -/

/-- The gap's NAK goes out once; nothing is received and the replay buffer stays. -/
theorem Link.gap_eq (l : Link) : l.gap.heard =
      { l.heard with nakSent := true, naks := if l.nakSent then l.naks else l.naks ++ [l.lastGood] } ∧
    l.gap.replay = l.replay := by
  unfold Link.gap
  split
  · rename_i h
    exact ⟨by simp [Link.heard, h], rfl⟩
  · exact ⟨rfl, rfl⟩

/-- R370: the next flit in sequence is accepted, and ends a gap. -/
theorem Link.accept_next {l : Link} {x : Flit} (htype : x.type ≠ 0) (hseq : x.fseq = l.lastGood + 1) :
    (l.accept x).heard =
      { l.heard with lastGood := x.fseq, nakSent := false, received := l.received ++ [(x.vc, x.payload)] } := by
  rw [Link.accept, if_neg htype, if_pos hseq]
  rfl

theorem Link.accept_gap {l : Link} {x : Flit} (htype : x.type ≠ 0) (hseq : x.fseq ≠ l.lastGood + 1) :
    l.accept x = l.gap := by
  rw [Link.accept, if_neg htype, if_neg hseq]

section Receive
variable {f k : Nat} {s : State} {x : Flit} (hl : linkOk f k = true) (hup : s.linksUp f = true)
  (hlink : ((s.frame f).link k).up = true)
include hl hup hlink

/-- A good flit without a NAK: its ACK and credits are taken, it is accepted or leaves a gap, and what waits goes out. -/
theorem exec_flitReceive_good (hgood : x.crcGood = true) (hnak : x.nak = false) :
    let l := { (s.frame f).link k with fecCorr := sat32 (((s.frame f).link k).fecCorr + x.corrected) }
    Runs (.flitReceive f k x) s fun t => OnlyFrame f s t ∧
      (t.frame f).link k = ((l.returns x).accept x).answer l.lastGood := by
  intro l
  refine runs_of_when rfl hl (by rw [hup, hlink]; rfl) ?_
  simp only [hgood, hnak, Bool.not_true, Bool.false_eq_true, if_false]
  exact ⟨((OnlyFrame.modLink s f k _).trans (OnlyFrame.modLink _ f k _)).trans (OnlyFrame.modLink _ f k _), by
    simp only [State.link_modLink, l]⟩

/-- A flit that fails its CRC is counted, and a sequenced one leaves a gap. -/
theorem exec_flitReceive_bad (hbad : x.crcGood = false) :
    let l := { (s.frame f).link k with
      fecCorr := sat32 (((s.frame f).link k).fecCorr + x.corrected), crcErrs := inc32 ((s.frame f).link k).crcErrs }
    Runs (.flitReceive f k x) s fun t => OnlyFrame f s t ∧ (t.frame f).link k = if x.type = 0 then l else l.gap := by
  intro l
  refine runs_of_when rfl hl (by rw [hup, hlink]; rfl) ?_
  simp only [hbad, Bool.not_false, if_true]
  exact ⟨(OnlyFrame.modLink s f k _).trans (OnlyFrame.modLink _ f k _), by simp only [State.link_modLink, l]⟩

end Receive

/-! ## NAK (R370) -/

/-- The flit acknowledged leaves the replay buffer, and the flits after it go out again. -/
theorem Link.resend_front {l : Link} {ack : BitVec 12} {q : SentFlit} {qs : List SentFlit} (hreplay : l.replay = q :: qs)
    (hack : q.fseq = ack) (hne : qs ≠ []) :
    let again := qs.map fun q => { q with resends := q.resends + 1 }
    l.resend ack = again.foldl (fun l q => l.putFlit q false) { l with replay := again, replays := sat16 (l.replays + 1) } := by
  intro again
  have hacked : l.acked ack = { l with replay := qs } := by simp [Link.acked, hreplay, hack, List.findIdx?_cons]
  simp [Link.resend, hacked, hne, again]

/-- No flit of the buffer has been sent again eight times, and the link stays in L0. -/
theorem Link.not_worn {l : Link} (h : ∀ q ∈ l.replay, q.resends < 8) : l.worn = false := by
  simp only [Link.worn, List.any_eq_false, decide_eq_true_eq, Nat.not_le]
  exact h

/-! ## Training and IDENT (R371, R372) -/

theorem Link.meet_heard (l : Link) (k : Nat) (p : PeerIdent) (st : Nat) :
    (l.meet k p st).state = st ∧ (l.meet k p st).peer = p := by
  have hmeet : ∀ m : Link, ((((m.replay.map fun q => ({ q with resends := 0 } : SentFlit)).foldl
      (fun (l : Link) q => l.putFlit q false) { m with
        peer := p, state := st, replay := m.replay.map fun q => { q with resends := 0 }, owed := [] }).grant k).pump).heard =
      { m.heard with peer := p, state := st } := fun m =>
    (Link.pump_heard _).trans (Link.foldl_putFlit_heard { m with
      peer := p, state := st, replay := m.replay.map fun q => { q with resends := 0 }, owed := [] } _)
  exact ⟨congrArg Link.state (hmeet _), congrArg Link.peer (hmeet _)⟩

/-- LINK_TRAINING changes its own frame alone, up to IDENT. -/
theorem OnlyFrame.trainLink (s : State) (f k : Nat) : OnlyFrame f s (s.trainLink f k) := OnlyFrame.setFrame s f _

/-- A fabric link that finds two lanes or more comes up with its peer. -/
theorem State.identify_fabric (s : State) {f k : Nat} (p : PeerIdent) (hk : k < 3)
    (hlanes : 2 ≤ ((s.frame f).link k).lanes) :
    s.identify f k p = s.modLink f k fun l => l.meet k p (if ((s.frame f).link k).lanes < 4 then 3 else 2) := by
  have hk3 : k ≠ 3 := by omega
  have hlt : ¬((s.frame f).link k).lanes < 2 := by omega
  rw [State.identify, if_neg hk3, if_neg hlt]

/-- A link that finds too few lanes goes on training. -/
theorem State.identify_few_lanes (s : State) {f k : Nat} (p : PeerIdent) (hlanes : ((s.frame f).link k).lanes < 2) :
    s.identify f k p = s := by
  have hlt : ((s.frame f).link k).lanes < 4 := by omega
  unfold State.identify
  simp [hlanes, hlt]

end Sys2Proof.Machine
end

section
/-! SUPPORT. The twin lanes of a frame: what the stream, the mirror state and completing commands leave of the frame's links. -/

namespace Sys2Proof.Machine

/-- A field that every pass of a walk keeps. -/
theorem State.forEach_same {α β : Type} (φ : State → β) {g : State → α → State} (h : ∀ t a, φ (g t a) = φ t) (s : State)
    (l : List α) : φ (s.forEach l g) = φ s :=
  s.forEach_keeps (fun t => φ t = φ s) l g (fun t a ht => (h t a).trans ht) rfl

/-- Whether the twin lanes of frame `f` are up, and its links. -/
def State.lanes (s : State) (f : Nat) : Bool × Sparse Link := ((s.frame f).streamUp, (s.frame f).links)

theorem State.lanes_eq_of_frames {s t : State} (h : t.frames = s.frames) (f : Nat) : t.lanes f = s.lanes f := by
  simp only [State.lanes, State.frame, h]

theorem State.lanes_setFrame_ne (s : State) {f g : Nat} (x : Frame) (h : g ≠ f) : (s.setFrame g x).lanes f = s.lanes f := by
  simp only [State.lanes, s.frame_setFrame_ne x h]

/-- A change of a frame that keeps its links and whether its lanes are up keeps those of every frame. -/
theorem State.lanes_setFrame (s : State) (g f : Nat) {x : Frame} (hup : x.streamUp = (s.frame g).streamUp)
    (hlinks : x.links = (s.frame g).links) : (s.setFrame g x).lanes f = s.lanes f := by
  by_cases h : g = f
  · subst h
    simp only [State.lanes, State.frame_setFrame_same, hup, hlinks]
  · exact s.lanes_setFrame_ne x h

/-! ## The mirror state (R99, R264) -/

section Lanes
variable (s : State) (f : Nat)

@[simp] theorem State.lanes_vector1All : s.vector1All.lanes f = s.lanes f :=
  State.forEach_same (g := State.vector1) (·.lanes f) (fun _ _ => rfl) s _

@[simp] theorem State.lanes_countHeld (e : PairEvent) : (s.countHeld e).lanes f = s.lanes f := s.lanes_setFrame _ f rfl rfl

@[simp] theorem State.lanes_holdEvents (g : Nat) : (s.holdEvents g).lanes f = s.lanes f := by
  refine State.forEach_same (·.lanes f) (fun t h => ?_) s _
  refine (State.forEach_same (·.lanes f) (fun u e => u.lanes_countHeld f e) _ _).trans ?_
  dsimp only
  split
  · rfl
  · exact t.lanes_setFrame h f rfl rfl

@[simp] theorem State.lanes_setMirror (g v : Nat) : (s.setMirror g v).lanes f = s.lanes f := by
  unfold State.setMirror
  split
  · rfl
  · dsimp only [State.when]
    split
    · rw [State.lanes_holdEvents, State.lanes_vector1All]; rfl
    · rw [State.lanes_vector1All]; rfl

@[simp] theorem State.lanes_dropSwept (u : Unit64) : (s.dropSwept u).lanes f = s.lanes f := s.lanes_setFrame _ f rfl rfl

@[simp] theorem State.lanes_markDirty (u : Unit64) : (s.markDirty u).lanes f = s.lanes f := by
  have hmod : (s.modFrame u.frame fun x => if x.stream.dirty.contains u.pageFrame then x
      else { x with stream := { x.stream with dirty := x.stream.dirty ++ [u.pageFrame] } }).lanes f = s.lanes f := by
    refine s.lanes_setFrame _ f ?_ ?_ <;> dsimp only <;> split <;> rfl
  unfold State.markDirty
  dsimp only
  split
  · rw [State.lanes_setMirror, hmod]
  · exact hmod

/-- A record goes out on the twin link of its frame alone. -/
theorem State.lanes_sendRecord_ne {g : Nat} (r : StreamRec) (h : g ≠ f) : (s.sendRecord g r).lanes f = s.lanes f := by
  unfold State.sendRecord
  split
  · rfl
  · exact s.lanes_setFrame_ne _ h

/-! ## Writes while the lanes of a frame are down (R99) -/

/-- STREAM_SEND sends nothing on a frame whose lanes are down. -/
theorem State.lanes_streamBurst (hdown : (s.lanes f).1 = false) (u : Unit64) : (s.streamBurst u).lanes f = s.lanes f := by
  unfold State.streamBurst
  split
  · dsimp only
    split
    · rename_i hsend
      have hne : u.frame ≠ f := by
        rintro rfl
        have hup : (((s.dropSwept u).lanes u.frame).1) = true := hsend.1
        rw [State.lanes_dropSwept, hdown] at hup
        cases hup
      split
      · rw [State.lanes_sendRecord_ne _ f _ hne]
        exact ((s.dropSwept u).lanes_setFrame_ne _ hne).trans (s.lanes_dropSwept f u)
      · rw [State.lanes_setMirror, State.lanes_sendRecord_ne _ f _ hne]
        exact ((s.dropSwept u).lanes_setFrame_ne _ hne).trans (s.lanes_dropSwept f u)
    · rw [State.lanes_markDirty, State.lanes_dropSwept]
  · rfl

/-- A walk of changes that keep the lanes of a frame while they are down. -/
theorem State.lanes_forEach {α : Type} (l : List α) {g : State → α → State}
    (h : ∀ t a, (t.lanes f).1 = false → (g t a).lanes f = t.lanes f) (hdown : (s.lanes f).1 = false) :
    (s.forEach l g).lanes f = s.lanes f :=
  s.forEach_keeps (fun t => t.lanes f = s.lanes f) l g (fun t a ht => (h t a (ht ▸ hdown)).trans ht) rfl

theorem State.lanes_writeDev (hdown : (s.lanes f).1 = false) (p : Place) (bs : List Byte) :
    (s.writeDev p bs).lanes f = s.lanes f :=
  State.lanes_forEach _ f _ (fun t u ht => t.lanes_streamBurst f ht u) hdown

/-! ## Completions while the lanes of a frame are down -/

theorem State.lanes_countRun (x : Cmd) : (s.countRun x).lanes f = s.lanes f := by
  unfold State.countRun
  split
  · rfl
  · split
    · rfl
    · split
      · rfl
      · split <;> rfl

theorem State.lanes_shadowEntry (hdown : (s.lanes f).1 = false) (x : Cmd) (r : CplRecord) :
    (s.shadowEntry x r).lanes f = s.lanes f := by
  unfold State.shadowEntry
  dsimp only
  split
  · rfl
  · split
    · rfl
    · split
      · rfl
      · generalize hw : s.writeDev _ _ = t
        have ht : t.lanes f = s.lanes f := hw ▸ s.lanes_writeDev f hdown _ _
        split <;> exact ht

theorem State.lanes_record (hdown : (s.lanes f).1 = false) (x : Cmd) (r : CplRecord) :
    (s.record x r).lanes f = s.lanes f := by
  rcases s.record_cases x r with h | h | h <;> rw [h]
  · exact s.lanes_shadowEntry f hdown x r
  · rfl
  · rfl

theorem State.lanes_finish (hdown : (s.lanes f).1 = false) (x : Cmd) (code detail : Nat) (result : Word64) :
    (s.finish x code detail result).lanes f = s.lanes f := by
  have hcount := s.lanes_countRun f x
  have hsignal : ((s.countRun x).signalled x code).lanes f = (s.countRun x).lanes f :=
    State.lanes_eq_of_frames (State.signalled_frames _ x code) f
  have hrecord := ((s.countRun x).signalled x code).lanes_record f (by rw [hsignal, hcount, hdown]) x
    ((s.countRun x).endRecord x code detail result)
  exact (State.lanes_eq_of_frames (State.withChain_frames _ x code) f).trans
    (hrecord.trans (hsignal.trans hcount))

theorem State.lanes_complete (hdown : (s.lanes f).1 = false) (c code detail : Nat) (result : Word64) :
    (s.complete c code detail result).lanes f = s.lanes f := by
  rcases s.complete_cases c code detail result with h | ⟨x, -, h⟩ <;> rw [h]
  exact s.lanes_finish f hdown x code detail result

theorem State.lanes_finishRows (hdown : (s.lanes f).1 = false) : s.finishRows.lanes f = s.lanes f := by
  refine s.lanes_forEach f _ (fun t x ht => ?_) hdown
  unfold State.finishRow
  split
  · split
    · exact t.lanes_complete f ht _ _ _ _
    · rfl
  · rfl

end Lanes

end Sys2Proof.Machine
end

section
/-! SUPPORT. Twin lanes that go down and come up, and O47. -/

namespace Sys2Proof

namespace Sparse

variable {α : Type} [DecidableEq α]

theorem find_write_same (d : α) (m : Sparse α) (k : Nat) (v : α) :
    find (write d m k v) k = if v = d then none else some v := by
  unfold write
  split <;> simp

theorem find_mapAll_none (d : α) (g : α → α) (m : Sparse α) {k : Nat} (h : find m k = none) :
    find (mapAll d g m) k = none := by
  induction m with
  | nil => rfl
  | cons p m ih =>
    obtain ⟨i, w⟩ := p
    by_cases hik : i = k
    · simp [find, hik] at h
    · rw [find, if_neg hik] at h
      have hrest := ih h
      simp only [mapAll, List.map_cons, List.filter_cons] at hrest ⊢
      split
      · rw [find, if_neg hik]; exact hrest
      · exact hrest

theorem find_mapAll_some (d : α) (g : α → α) (m : Sparse α) {k : Nat} {v : α} (h : find m k = some v) (hv : g v ≠ d) :
    find (mapAll d g m) k = some (g v) := by
  induction m with
  | nil => cases h
  | cons p m ih =>
    obtain ⟨i, w⟩ := p
    by_cases hik : i = k
    · rw [find, if_pos hik] at h
      obtain rfl := Option.some.inj h
      simp [mapAll, hv, find, hik]
    · rw [find, if_neg hik] at h
      have hrest := ih h
      simp only [mapAll, List.map_cons, List.filter_cons] at hrest ⊢
      split
      · rw [find, if_neg hik]; exact hrest
      · exact hrest

/-- What was just written reads changed after a change of every value that keeps the default, and gives it to no other value. -/
theorem read_mapAll_write (d : α) {g : α → α} (hg : ∀ v, g v = d ↔ v = d) (m : Sparse α) (k : Nat) (v : α) :
    read d (mapAll d g (write d m k v)) k = g v := by
  have hfind := find_write_same d m k v
  by_cases hv : v = d
  · rw [if_pos hv] at hfind
    rw [read, find_mapAll_none d g _ hfind, hv]
    exact ((hg d).mpr rfl).symm
  · rw [if_neg hv] at hfind
    rw [read, find_mapAll_some d g _ hfind (fun h => hv ((hg v).mp h))]
    rfl

end Sparse

namespace Machine

/-! ## Lanes that go down (R99, R373) -/

/-- A frame with what its pair events know changed. -/
def Frame.mapKnown (g : Known → Known) (x : Frame) : Frame :=
  { x with stream := { x.stream with events := x.stream.events.map fun e => { e with known := g e.known } } }

theorem Frame.mapKnown_eq_reset (g : Known → Known) (x : Frame) : x.mapKnown g = Frame.reset ↔ x = Frame.reset := by
  constructor
  · intro h
    have hevents : x.stream.events = [] := List.map_eq_nil_iff.mp (congrArg (·.stream.events) h)
    rw [← h, Frame.mapKnown, hevents, List.map_nil, ← hevents]
  · rintro rfl
    rfl

theorem State.lanes_mapKnown_setFrame (s : State) (f : Nat) (x : Frame) (g : Known → Known) :
    ((s.setFrame f x).mapKnown g).lanes f = (x.streamUp, x.links) := by
  have hframe : ((s.setFrame f x).mapKnown g).frame f = x.mapKnown g :=
    Sparse.read_mapAll_write Frame.reset (Frame.mapKnown_eq_reset g) s.frames f x
  rw [State.lanes, hframe]
  rfl

theorem State.lanes_setFrame_same (s : State) (f : Nat) (x : Frame) : (s.setFrame f x).lanes f = (x.streamUp, x.links) := by
  simp [State.lanes]

/-- The lanes of a frame that was just replaced go down, and its links stay. -/
theorem State.lanes_streamDown_setFrame (s : State) (f : Nat) (x : Frame) :
    ((s.setFrame f x).streamDown f).lanes f = (false, x.links) := by
  have hfall : ((s.setFrame f x).fallToRegions f).lanes f = (x.streamUp, x.links) := s.lanes_mapKnown_setFrame f x _
  refine (State.lanes_finishRows _ f ?_).trans ?_
  · rw [State.lanes_setMirror, State.modFrame_eq, State.lanes_setFrame_same]
  · rw [State.lanes_setMirror, State.modFrame_eq, State.lanes_setFrame_same]
    exact congrArg (Prod.mk false) (congrArg Prod.snd hfall)

theorem State.lanes_streamDown_modLink (s : State) (f k : Nat) (g : Link → Link) :
    ((s.modLink f k g).streamDown f).lanes f = (false, ((s.frame f).setLink k (g ((s.frame f).link k))).links) :=
  s.lanes_streamDown_setFrame f _

theorem State.streamUp_eq_lanes (s : State) (f : Nat) : (s.frame f).streamUp = (s.lanes f).1 := rfl

theorem State.link_eq_read_lanes (s : State) (f k : Nat) : (s.frame f).link k = Sparse.read Link.reset (s.lanes f).2 k := rfl

/-- R373: a link that retrains counts it, and a twin link takes the lanes of its frame down. -/
theorem State.retrain_link (s : State) (f k : Nat) :
    ((s.retrain f k).frame f).link k =
        { (s.frame f).link k with state := 1, retrains := sat16 (((s.frame f).link k).retrains + 1) } ∧
      (k = 3 → ((s.retrain f k).frame f).streamUp = false) := by
  by_cases hk : k = 3
  · rw [State.retrain, if_pos hk]
    refine ⟨?_, fun _ => congrArg Prod.fst (s.lanes_streamDown_modLink f k _)⟩
    rw [State.link_eq_read_lanes, State.lanes_streamDown_modLink]
    simp [Frame.setLink]
  · rw [State.retrain, if_neg hk]
    exact ⟨s.link_modLink f k _, fun h => absurd h hk⟩

/-! ## Lanes that come up (R99, R264) -/

theorem State.lanes_sayHello (s : State) (f g : Nat) : (s.sayHello g).lanes f = s.lanes f := by
  unfold State.sayHello State.tell
  split <;> rfl

theorem State.lanes_releaseEvents (s : State) (f : Nat) : s.releaseEvents.lanes f = s.lanes f := by
  refine State.forEach_same (·.lanes f) (fun t g => ?_) s _
  refine (State.forEach_same (g := State.sendEvent) (·.lanes f) (fun _ _ => rfl) _ _).trans ?_
  dsimp only
  split
  · rfl
  · exact t.lanes_setFrame g f rfl rfl

theorem State.lanes_streamStart (s : State) (f : Nat) : (s.streamStart f).lanes f = (true, (s.frame f).links) := by
  unfold State.streamStart
  rw [State.lanes_releaseEvents, State.lanes_sayHello, State.lanes_setMirror, State.modFrame_eq, State.lanes_setFrame_same]

@[simp] theorem State.twin_vector1All (s : State) : s.vector1All.twin = s.twin :=
  State.forEach_same (g := State.vector1) (·.twin) (fun _ _ => rfl) s _

@[simp] theorem State.twin_holdEvents (s : State) (f : Nat) : (s.holdEvents f).twin = s.twin := by
  refine State.forEach_same (·.twin) (fun u h => ?_) s _
  refine (State.forEach_same (g := State.countHeld) (·.twin) (fun _ _ => rfl) _ _).trans ?_
  dsimp only
  split
  · rfl
  · exact u.setFrame_twin h _

/-- The mirror state alone changes in what is known of the twin. -/
theorem State.silence_setMirror (s : State) (f v : Nat) : (s.setMirror f v).twin.silence = s.twin.silence := by
  unfold State.setMirror
  split
  · rfl
  · dsimp only [State.when]
    split <;> simp only [State.twin_holdEvents, State.twin_vector1All]

theorem State.silence_sayHello (s : State) (f : Nat) : (s.sayHello f).twin.silence = s.twin.silence := by
  unfold State.sayHello State.tell
  split
  · rfl
  · rfl

theorem State.silence_releaseEvents (s : State) : s.releaseEvents.twin.silence = s.twin.silence := by
  unfold State.releaseEvents
  refine State.forEach_same (fun t => t.twin.silence) (fun u g => ?_) s _
  refine (State.forEach_same (fun t => t.twin.silence) (g := State.sendEvent) (fun _ _ => rfl) _ _).trans ?_
  dsimp only
  split
  · rfl
  · exact congrArg (·.silence) (u.setFrame_twin g _)

theorem State.silence_streamStart (s : State) (f : Nat) : (s.streamStart f).twin.silence = s.twin.silence := by
  unfold State.streamStart
  rw [State.silence_releaseEvents, State.silence_sayHello, State.silence_setMirror, State.modFrame_eq, State.setFrame_twin]

/-! ## Bytes of a flit (R2, R368) -/

theorem length_fillTo (n : Nat) (bs : List Byte) : (fillTo n bs).length = n := by
  simp [fillTo]
  omega

/-- The 246 B that the CRC of a flit covers. -/
def flitHead (q : SentFlit) (nak : Bool) (credVc : Nat) (ack : BitVec 12) (credits : Nat) : List Byte :=
  leBytes 1 (q.type.toNat + q.vc.toNat * 16 + bit nak * 64) ++ leBytes 2 (q.fseq.toNat + credVc * 4096) ++
    leBytes 2 ack.toNat ++ leBytes 1 credits ++ fillTo 240 q.payload

theorem crcBit_lt {c : Nat} (h : c < 2 ^ 32) : crcBit c < 2 ^ 32 := by
  unfold crcBit
  split
  · exact Nat.xor_lt_two_pow (by omega) (by decide)
  · omega

theorem crcByte_lt {c : Nat} (b : Byte) (h : c < 2 ^ 32) : crcByte c b < 2 ^ 32 := by
  have hb : c ^^^ b.toNat < 2 ^ 32 := Nat.xor_lt_two_pow h (by omega)
  exact crcBit_lt (crcBit_lt (crcBit_lt (crcBit_lt (crcBit_lt (crcBit_lt (crcBit_lt (crcBit_lt hb)))))))

theorem crc32_lt (bs : List Byte) : crc32 bs < 2 ^ 32 := by
  have hfold : ∀ c < 2 ^ 32, bs.foldl crcByte c < 2 ^ 32 := by
    induction bs with
    | nil => exact fun c h => h
    | cons b bs ih => exact fun c h => ih _ (crcByte_lt b h)
  exact Nat.xor_lt_two_pow (hfold _ (by decide)) (by decide)

section Bytes
variable (q : SentFlit) (nak : Bool) (vc n : Nat) (ack : BitVec 12)

theorem length_flitHead : (flitHead q nak vc ack n).length = 246 := by
  simp [flitHead, length_fillTo]

/-- A flit is its head, the CRC-32 of its head, and six check bytes. -/
theorem flitBytes_eq : ∃ check : List Byte, check.length = 6 ∧
    flitBytes q nak vc ack n = flitHead q nak vc ack n ++ (leBytes 4 (crc32 (flitHead q nak vc ack n)) ++ check) :=
  ⟨_, length_leBytes 6 _, by rw [flitBytes, ← List.append_assoc]; rfl⟩

/-- R368: the fields of the head. -/
theorem fieldAt_flitHead (hvc : vc < 4) (hn : n < 256) :
    fieldAt (flitHead q nak vc ack n) 0 1 = q.type.toNat + q.vc.toNat * 16 + bit nak * 64 ∧
    fieldAt (flitHead q nak vc ack n) 1 2 = q.fseq.toNat + vc * 4096 ∧
    fieldAt (flitHead q nak vc ack n) 3 2 = ack.toNat ∧ fieldAt (flitHead q nak vc ack n) 5 1 = n := by
  have hnak := bit_le nak
  simp only [flitHead]
  simp [fieldAt_append_right, fieldAt_append_left, fieldAt_leBytes]
  refine ⟨?_, ?_, ?_, ?_⟩ <;> omega

/-- R368: the payload stands at byte 6, filled up with zeros. -/
theorem flitHead_payload (hlen : q.payload.length ≤ 240) :
    (flitHead q nak vc ack n).drop 6 = q.payload ++ List.replicate (240 - q.payload.length) 0 := by
  have hfill : fillTo 240 q.payload = q.payload ++ List.replicate (240 - q.payload.length) 0 :=
    List.take_of_length_le (by simp; omega)
  rw [flitHead, hfill, List.drop_left']
  simp

end Bytes

/-- R2, R368: a flit as bytes. -/
theorem flitBytes_layout (q : SentFlit) (nak : Bool) (vc n : Nat) (ack : BitVec 12) (hvc : vc < 4) (hn : n < 256)
    (hlen : q.payload.length ≤ 240) :
    let bs := flitBytes q nak vc ack n
    bs.length = 256 ∧ fieldAt bs 0 1 = q.type.toNat + q.vc.toNat * 16 + bit nak * 64 ∧
    fieldAt bs 1 2 = q.fseq.toNat + vc * 4096 ∧ fieldAt bs 3 2 = ack.toNat ∧ fieldAt bs 5 1 = n ∧
    (bs.drop 6).take q.payload.length = q.payload ∧
    (∀ i, q.payload.length ≤ i → i < 240 → bs[6 + i]? = some 0#8) ∧ fieldAt bs 0xF6 4 = crc32 (bs.take 0xF6) := by
  intro bs
  obtain ⟨check, hcheck, hbs⟩ := flitBytes_eq q nak vc n ack
  have hhead := length_flitHead q nak vc n ack
  obtain ⟨htype, hfseq, hack, hcredits⟩ := fieldAt_flitHead q nak vc n ack hvc hn
  have hpayload := flitHead_payload q nak vc n ack hlen
  have hfield : ∀ off k, off + k ≤ 246 → fieldAt bs off k = fieldAt (flitHead q nak vc ack n) off k := fun off k h => by
    rw [show bs = _ from hbs, fieldAt_append_left _ (by omega)]
  have hdrop : bs.drop 6 = q.payload ++ (List.replicate (240 - q.payload.length) 0 ++
      (leBytes 4 (crc32 (flitHead q nak vc ack n)) ++ check)) := by
    rw [show bs = _ from hbs, List.drop_append_of_le_length (by omega), hpayload, List.append_assoc]
  refine ⟨?_, (hfield 0 1 (by omega)).trans htype, (hfield 1 2 (by omega)).trans hfseq, (hfield 3 2 (by omega)).trans hack,
    (hfield 5 1 (by omega)).trans hcredits, ?_, fun i hlow hhigh => ?_, ?_⟩
  · rw [show bs = _ from hbs]
    simp [hhead, hcheck]
  · rw [hdrop, List.take_left']
    rfl
  · rw [← List.getElem?_drop, hdrop, List.getElem?_append_right hlow, List.getElem?_append_left (by simp; omega)]
    exact List.getElem?_replicate_of_lt (by omega)
  · rw [show bs = _ from hbs, fieldAt_append_right _ _ (by omega), fieldAt_append_left _ (by simp [hhead]), hhead,
      List.take_left' hhead, fieldAt_leBytes, Nat.mod_eq_of_lt (by simpa using crc32_lt _)]

/-- R368, R371: a flit that a link emits. -/
theorem Link.emit_effect (l : Link) (q : SentFlit) :
    (l.emit q).nextFseq = l.nextFseq + 1 ∧ (l.emit q).replay = l.replay ++ [{ q with fseq := l.nextFseq }] ∧
    (∃ vc n, vc < 4 ∧ n ≤ 255 ∧ n ≤ Sparse.read 0 l.owed vc ∧
      (l.emit q).wire = l.wire ++ [flitBytes { q with fseq := l.nextFseq } false vc l.lastGood n] ∧
      Sparse.read 0 (l.emit q).owed vc = Sparse.read 0 l.owed vc - n) ∧
    (l.emit q).lastGood = l.lastGood ∧ (l.emit q).received = l.received := by
  have hvc : ((List.range 4).find? fun v => decide (Sparse.read 0 l.owed v ≠ 0)).getD 0 < 4 := by
    cases hfind : (List.range 4).find? fun v => decide (Sparse.read 0 l.owed v ≠ 0) with
    | none => decide
    | some v => exact List.mem_range.mp (List.mem_of_find?_eq_some hfind)
  exact ⟨rfl, rfl, ⟨_, _, hvc, Nat.min_le_left _ _, Nat.min_le_right _ _, rfl, Sparse.read_write_same 0 l.owed _ _⟩, rfl, rfl⟩

/-! ## O47 -/

/-- A twin link meets the twin, which is silent no more. -/
def State.meetTwin (s : State) (f k : Nat) (p : PeerIdent) : State :=
  { s.modLink f k (fun l => l.meet k p 2) with twin := { s.twin with silence := false } }

theorem State.meetTwin_state (s : State) (f k : Nat) (p : PeerIdent) : (((s.meetTwin f k p).frame f).link k).state = 2 := by
  have hframes : (s.meetTwin f k p).frames = (s.modLink f k fun l => l.meet k p 2).frames := rfl
  rw [State.link_eq_read_lanes, State.lanes_eq_of_frames hframes, ← State.link_eq_read_lanes, State.link_modLink]
  exact (Link.meet_heard _ k p 2).1

theorem State.identify_twin (s : State) {f k : Nat} {p : PeerIdent} (hk : k = 3) (hlanes : 4 ≤ ((s.frame f).link k).lanes)
    (hpeer : s.twinPeer f p = true) : s.identify f k p = (s.meetTwin f k p).streamStart f := by
  have hmany : ¬((s.frame f).link k).lanes < 4 := by omega
  simp only [State.identify, if_pos hk, if_neg hmany, hpeer, if_true]
  rfl

theorem State.identify_other (s : State) {f k : Nat} {p : PeerIdent} (hk : k = 3) (hlanes : 4 ≤ ((s.frame f).link k).lanes)
    (hpeer : s.twinPeer f p = false) : s.identify f k p = s.modLink f k fun l => { l with peer := p, state := 4 } := by
  have hmany : ¬((s.frame f).link k).lanes < 4 := by omega
  simp only [State.identify, if_pos hk, if_neg hmany, hpeer, Bool.false_eq_true, if_false]

section Received
variable {l : Link} {x : Flit} (before : BitVec 12) (htype : x.type ≠ 0)
include htype

/-- The next flit in sequence: what the link has heard once it has answered. -/
theorem Link.heard_of_next (hseq : x.fseq = l.lastGood + 1) : (((l.returns x).accept x).answer before).heard =
    { l.heard with lastGood := x.fseq, nakSent := false, received := l.received ++ [(x.vc, x.payload)] } := by
  have hlast : (l.returns x).lastGood = l.lastGood := (congrArg Link.lastGood (l.returns_heard x) :)
  have hreceived : (l.returns x).received = l.received := (congrArg Link.received (l.returns_heard x) :)
  rw [Link.answer_heard, Link.accept_next htype (by rw [hlast, hseq]), Link.returns_heard, hreceived]

/-- A flit out of order: what the link has heard once it has answered. -/
theorem Link.heard_of_gap (hseq : x.fseq ≠ l.lastGood + 1) : (((l.returns x).accept x).answer before).heard =
    { l.heard with nakSent := true, naks := if l.nakSent then l.naks else l.naks ++ [l.lastGood] } := by
  have hheard := l.returns_heard x
  have hlast : (l.returns x).lastGood = l.lastGood := (congrArg Link.lastGood hheard :)
  have hsent : (l.returns x).nakSent = l.nakSent := (congrArg Link.nakSent hheard :)
  have hnaks : (l.returns x).naks = l.naks := (congrArg Link.naks hheard :)
  rw [Link.answer_heard, Link.accept_gap htype (by rwa [hlast]), (Link.gap_eq _).1, hheard, hlast, hsent, hnaks]

end Received

theorem Runs.imp {i : Instr} {s : State} {P Q : State → Prop} (h : Runs i s P) (himp : ∀ t, P t → Q t) : Runs i s Q := by
  obtain ⟨t, hexec, ht⟩ := h
  exact ⟨t, hexec, himp t ht⟩

section Clauses
variable {f k : Nat} {s : State} (hl : linkOk f k = true) (hup : s.linksUp f = true)
include hl hup

/-- A NAK of the oldest flit has the others sent again. -/
theorem nak_sends_again (hlink : ((s.frame f).link k).up = true) {ack : BitVec 12} {q : SentFlit} {qs : List SentFlit}
    (hreplay : ((s.frame f).link k).replay = q :: qs) (hack : q.fseq = ack) (hne : qs ≠ []) (hfew : ∀ y ∈ qs, y.resends < 7) :
    Runs (.nak f k ack) s fun t => OnlyFrame f s t ∧ (t.frame f).link k = ((s.frame f).link k).resend ack := by
  refine runs_of_when rfl hl (by rw [hup, hlink]; rfl) ?_
  have hfresh : (((s.modLink f k fun l => l.resend ack).frame f).link k).worn = false := by
    rw [State.link_modLink, Link.resend_front hreplay hack hne]
    refine Link.not_worn fun y hy => ?_
    rw [Link.foldl_putFlit_replay] at hy
    obtain ⟨z, hz, rfl⟩ := List.mem_map.mp hy
    exact Nat.succ_lt_succ (hfew z hz)
  rw [State.takeNak]
  simp only [hfresh, Bool.false_eq_true, if_false]
  exact ⟨OnlyFrame.modLink s f k _, s.link_modLink f k _⟩

/-- A fabric link that trains two lanes or more is in L0 with its peer. -/
theorem linkTraining_fabric (hdown : ((s.frame f).link k).up = false) (hk : k < 3) (lanes : Nat) (peer : PeerIdent)
    (hlanes : 2 ≤ lanes) : Runs (.linkTraining f k lanes peer) s fun t => OnlyFrame f s t ∧
      ((t.frame f).link k).state = (if 4 ≤ lanes then 2 else 3) ∧ ((t.frame f).link k).peer = peer := by
  refine runs_of_when rfl hl (by rw [hup, hdown]; rfl) ?_
  have htrained : ((((s.trainLink f k).modLink f k fun l => { l with state := 1, lanes := min lanes 4 }).frame f).link k).lanes =
      min lanes 4 := by rw [State.link_modLink]
  rw [State.identify_fabric _ peer hk (by rw [htrained]; omega)]
  refine ⟨((OnlyFrame.trainLink s f k).trans (OnlyFrame.modLink _ f k _)).trans (OnlyFrame.modLink _ f k _), ?_⟩
  rw [State.link_modLink, htrained]
  obtain ⟨hstate, hpeer⟩ := Link.meet_heard
    ((((s.trainLink f k).modLink f k fun l => { l with state := 1, lanes := min lanes 4 }).frame f).link k) k peer
    (if min lanes 4 < 4 then 3 else 2)
  refine ⟨hstate.trans ?_, hpeer⟩
  by_cases h : 4 ≤ lanes
  · rw [if_pos h, if_neg (by omega)]
  · rw [if_neg h, if_pos (by omega)]

/-- A link that trains fewer than two lanes goes on training. -/
theorem linkTraining_few (hdown : ((s.frame f).link k).up = false) (lanes : Nat) (peer : PeerIdent) (hlanes : lanes < 2) :
    Runs (.linkTraining f k lanes peer) s fun t => OnlyFrame f s t ∧
      ((t.frame f).link k).state = 1 ∧ ((t.frame f).link k).lanes = lanes := by
  refine runs_of_when rfl hl (by rw [hup, hdown]; rfl) ?_
  have hmin : min lanes 4 = lanes := by omega
  rw [State.identify_few_lanes _ peer (by rw [State.link_modLink, hmin]; exact hlanes)]
  exact ⟨(OnlyFrame.trainLink s f k).trans (OnlyFrame.modLink _ f k _), by simp [hmin]⟩

/-- IDENT of a twin link by another peer (R372). -/
theorem ident_miswired (hdown : ((s.frame f).link k).up = false) (hk : k = 3) (hlanes : 4 ≤ ((s.frame f).link k).lanes)
    {peer : PeerIdent} (hpeer : s.twinPeer f peer = false) : Runs (.ident f k peer) s fun t => OnlyFrame f s t ∧
      ((t.frame f).link k).state = 4 ∧ ((t.frame f).link k).peer = peer := by
  refine runs_of_when rfl hl (by rw [hup, hdown]; rfl) ?_
  rw [s.identify_other hk hlanes hpeer]
  exact ⟨OnlyFrame.modLink s f k _, by simp⟩

/-- IDENT of a twin link by the twin: the stream of the frame starts. -/
theorem ident_twin (hdown : ((s.frame f).link k).up = false) (hk : k = 3) (hlanes : 4 ≤ ((s.frame f).link k).lanes)
    {peer : PeerIdent} (hpeer : s.twinPeer f peer = true) : Runs (.ident f k peer) s fun t =>
      ((t.frame f).link k).state = 2 ∧ (t.frame f).streamUp = true ∧ t.twin.silence = false := by
  refine runs_of_when rfl hl (by rw [hup, hdown]; rfl) ?_
  rw [s.identify_twin hk hlanes hpeer]
  have hlanes' := (s.meetTwin f k peer).lanes_streamStart f
  refine ⟨?_, ?_, ?_⟩
  · rw [State.link_eq_read_lanes, hlanes']
    exact s.meetTwin_state f k peer
  · rw [State.streamUp_eq_lanes, hlanes']
  · rw [State.silence_streamStart]
    rfl

end Clauses

/-- Settles O47: what a link that sends keeps (`Link.heard`) carries each clause of a receiver through the flits that it answers
with; the lanes of a frame (`State.lanes`) carry a twin link through its stream's start and end. -/
theorem linksDeliverInOrder : Obligations.LinksDeliverInOrder := by
  refine ⟨fun f k s hl hup => ?_, fun q nak vc n ack => flitBytes_layout q nak vc n ack, fun l q => l.emit_effect q⟩
  intro l
  refine ⟨fun hlink => ⟨fun x hgood hnak htype => ?_, fun x hbad => ?_, fun ack q qs hreplay hack hne hfew => ?_, ?_⟩,
    fun hdown hk lanes peer hlanes => linkTraining_fabric hl hup hdown hk lanes peer hlanes,
    fun hdown lanes peer hlanes => linkTraining_few hl hup hdown lanes peer hlanes,
    fun hdown hk hlanes peer => ⟨ident_miswired hl hup hdown hk hlanes, ident_twin hl hup hdown hk hlanes⟩⟩
  · refine (exec_flitReceive_good hl hup hlink hgood hnak).imp fun t ht => ?_
    obtain ⟨honly, hm⟩ := ht
    refine ⟨honly, ?_⟩
    intro m
    by_cases hseq : x.fseq = l.lastGood + 1
    · have hheard := Link.heard_of_next (l := { l with fecCorr := sat32 (l.fecCorr + x.corrected) }) l.lastGood htype hseq
      rw [← hm] at hheard
      exact ⟨(congrArg Link.fecCorr hheard :), (congrArg Link.crcErrs hheard :),
        fun _ => ⟨(congrArg Link.lastGood hheard :), (congrArg Link.nakSent hheard :), (congrArg Link.naks hheard :),
          (congrArg Link.received hheard :)⟩, fun hne => absurd hseq hne⟩
    · have hheard := Link.heard_of_gap (l := { l with fecCorr := sat32 (l.fecCorr + x.corrected) }) l.lastGood htype hseq
      rw [← hm] at hheard
      exact ⟨(congrArg Link.fecCorr hheard :), (congrArg Link.crcErrs hheard :), fun heq => absurd heq hseq,
        fun _ => ⟨(congrArg Link.lastGood hheard :), (congrArg Link.received hheard :), (congrArg Link.nakSent hheard :),
          (congrArg Link.naks hheard :)⟩⟩
  · refine (exec_flitReceive_bad hl hup hlink hbad).imp fun t ht => ?_
    obtain ⟨honly, hm⟩ := ht
    refine ⟨honly, ?_⟩
    intro m
    by_cases htype : x.type = 0
    · rw [if_pos htype] at hm
      simp [m, hm, htype, l]
    · rw [if_neg htype] at hm
      obtain ⟨hheard, hreplay⟩ := Link.gap_eq { l with
        fecCorr := sat32 (l.fecCorr + x.corrected), crcErrs := inc32 l.crcErrs }
      rw [← hm] at hheard hreplay
      exact ⟨(congrArg Link.crcErrs hheard :), (congrArg Link.received hheard :), (congrArg Link.lastGood hheard :), hreplay,
        fun _ => (congrArg Link.nakSent hheard :), fun h => absurd h htype⟩
  · refine (nak_sends_again hl hup hlink hreplay hack hne hfew).imp fun t ht => ?_
    obtain ⟨honly, hm⟩ := ht
    refine ⟨honly, ?_⟩
    intro m again
    rw [Link.resend_front hreplay hack hne] at hm
    have hheard := Link.foldl_putFlit_heard { l with replay := again, replays := sat16 (l.replays + 1) } again
    refine ⟨?_, ?_, ?_, ?_, fun howed => ?_⟩
    · exact (congrArg Link.replay hm).trans (Link.foldl_putFlit_replay _ _)
    · exact (congrArg (·.wire.length) hm).trans (Link.foldl_putFlit_wire_length _ _)
    · exact (congrArg Link.state hm).trans (congrArg Link.state hheard :)
    · exact (congrArg Link.replays hm).trans (congrArg Link.replays hheard :)
    · exact (congrArg Link.wire hm).trans (Link.foldl_putFlit_wire (l := { l with
        replay := again, replays := sat16 (l.replays + 1) }) howed again)
  · refine runs_of_when rfl hl (by rw [hup, hlink]; rfl) ?_
    obtain ⟨hlink', hstream⟩ := s.retrain_link f k
    exact ⟨congrArg Link.state hlink', congrArg Link.retrains hlink', hstream⟩

end Machine
end Sys2Proof
end

section
/-! SUPPORT. The journal: what each step of its way touches, and the bays, which only the saggars' own commands change. -/

namespace Sys2Proof.Machine

/-! ## Bays -/

@[simp] theorem State.bay_setBay_same (s : State) (k : Bay) (x : BayState) : (s.setBay k x).bay k = x := by cases k <;> rfl
@[simp] theorem State.setBay_mem (s : State) (k : Bay) (x : BayState) : (s.setBay k x).mem = s.mem := by cases k <;> rfl
@[simp] theorem State.setBay_frame (s : State) (k : Bay) (x : BayState) (f : Nat) : (s.setBay k x).frame f = s.frame f := by
  cases k <;> rfl
@[simp] theorem State.bay_setFrame (s : State) (f : Nat) (x : Frame) (k : Bay) : (s.setFrame f x).bay k = s.bay k := by
  cases k <;> rfl

/-- The bytes counted and the life that is left concern no record, checkpoint or row. -/
@[simp] theorem BayState.wrote_sent (b : BayState) (n : Nat) : (b.wrote n).sent = b.sent := by
  simp only [BayState.wrote, apply_ite BayState.sent, ite_self]
@[simp] theorem BayState.wrote_held (b : BayState) (n : Nat) : (b.wrote n).held = b.held := by
  simp only [BayState.wrote, apply_ite BayState.held, ite_self]
@[simp] theorem BayState.wrote_ckpts (b : BayState) (n : Nat) : (b.wrote n).ckpts = b.ckpts := by
  simp only [BayState.wrote, apply_ite BayState.ckpts, ite_self]

/-- Vector 1 on every port touches no bay, frame or memory. -/
theorem State.vector1All_keeps (s : State) :
    (∀ k, s.vector1All.bay k = s.bay k) ∧ s.vector1All.frames = s.frames ∧ s.vector1All.mem = s.mem :=
  ⟨fun k => State.forEach_same (g := State.vector1) (·.bay k) (fun t p => by cases k <;> rfl) s _,
    State.forEach_same (g := State.vector1) (·.frames) (fun _ _ => rfl) s _,
    State.forEach_same (g := State.vector1) (·.mem) (fun _ _ => rfl) s _⟩

@[simp] theorem State.bay_vector1All (s : State) (k : Bay) : s.vector1All.bay k = s.bay k := s.vector1All_keeps.1 k

@[simp] theorem State.bay_changeBay_same (s : State) (k : Bay) (x : BayState) : (s.changeBay k x).bay k = x := by
  unfold State.changeBay; dsimp only; split <;> simp

@[simp] theorem State.changeBay_mem (s : State) (k : Bay) (x : BayState) : (s.changeBay k x).mem = s.mem := by
  unfold State.changeBay
  dsimp only
  split
  · exact s.setBay_mem k x
  · rw [(State.vector1All_keeps _).2.2, State.setBay_mem]

/-! ## JOURNAL_APPEND (R104, R107) -/

/-- The module but for what its journal touches: the frames, the twin's copies, GAP_FRAMES and CKPT_LATE. -/
def State.offJournal (s : State) : State := { s with frames := [], twin := Twin.reset, gapFrames := 0, ckptLate := 0 }

section Append
variable (s : State) (f : Nat)

@[simp] theorem State.setFrame_offJournal (x : Frame) : (s.setFrame f x).offJournal = s.offJournal := rfl

@[simp] theorem State.copyToTwin_offJournal (c : TwinRec) : (s.copyToTwin f c).offJournal = s.offJournal := by
  unfold State.copyToTwin
  split <;> rfl

@[simp] theorem State.copyToTwin_frame (c : TwinRec) (g : Nat) : (s.copyToTwin f c).frame g = s.frame g := by
  unfold State.copyToTwin
  split <;> rfl

@[simp] theorem State.copyToTwin_gapFrames (c : TwinRec) : (s.copyToTwin f c).gapFrames = s.gapFrames := by
  unfold State.copyToTwin
  split <;> rfl

/-- The frame's checkpoint starts if it is due (R108). -/
def State.beginCheckpoint (s : State) (f : Nat) : State :=
  if s.ckptTrigger ≤ (s.frame f).journal.sinceCkpt ∧ (s.frame f).journal.ckptLeft = none then
    s.modFrame f fun x => { x with journal := { x.journal with ckptLeft := some (x.shardsOf f) } }
  else s

/-- CKPT_LATE of the frame is raised at twice the trigger (R108). -/
theorem State.checkpointStart_eq : s.checkpointStart f =
    if 2 * s.ckptTrigger ≤ (s.frame f).journal.sinceCkpt then
      (fun t : State => { t with ckptLate := setBit t.ckptLate f true }) (s.beginCheckpoint f)
    else s.beginCheckpoint f := by
  unfold State.checkpointStart State.beginCheckpoint
  exact Eq.refl _

theorem State.beginCheckpoint_offJournal : (s.beginCheckpoint f).offJournal = s.offJournal := by
  unfold State.beginCheckpoint
  split
  · exact s.setFrame_offJournal f _
  · exact Eq.refl _

theorem State.beginCheckpoint_journal : ∃ left, ((s.beginCheckpoint f).frame f).journal =
    { (s.frame f).journal with ckptLeft := left } := by
  unfold State.beginCheckpoint
  split
  · exact ⟨some ((s.frame f).shardsOf f), by simp⟩
  · exact ⟨(s.frame f).journal.ckptLeft, rfl⟩

@[simp] theorem State.checkpointStart_offJournal : (s.checkpointStart f).offJournal = s.offJournal := by
  have hlate : ∀ t : State, ((fun t : State => { t with ckptLate := setBit t.ckptLate f true }) t).offJournal = t.offJournal :=
    fun _ => rfl
  rw [State.checkpointStart_eq]
  split
  · rw [hlate, State.beginCheckpoint_offJournal]
  · rw [State.beginCheckpoint_offJournal]

/-- A checkpoint that starts changes the list of its shards alone in the journal. -/
theorem State.checkpointStart_journal : ∃ left, ((s.checkpointStart f).frame f).journal =
    { (s.frame f).journal with ckptLeft := left } := by
  have hlate : ∀ t : State, ((fun t : State => { t with ckptLate := setBit t.ckptLate f true }) t).frame f = t.frame f :=
    fun _ => rfl
  rw [State.checkpointStart_eq]
  split
  · rw [hlate]
    exact s.beginCheckpoint_journal f
  · exact s.beginCheckpoint_journal f

variable (seq0 table row : Nat) (cold : Bool) (body : JournalBody)

@[simp] theorem State.stageRecord_offJournal : (s.stageRecord seq0 f table row cold body).offJournal = s.offJournal := by
  simp [State.stageRecord]

@[simp] theorem State.stageRecord_gapFrames : (s.stageRecord seq0 f table row cold body).gapFrames = s.gapFrames := by
  simp [State.stageRecord]

/-- A staged record stands at the end of its frame's ring, with the next JSEQ. -/
@[simp] theorem State.stageRecord_journal : ((s.stageRecord seq0 f table row cold body).frame f).journal =
    { (s.frame f).journal with
      nextJseq := (s.frame f).journal.nextJseq + 1,
      ring := (s.frame f).journal.ring ++ [s.nextRecord seq0 f table row cold body],
      ringBytes := (s.frame f).journal.ringBytes + journalLength body,
      sinceCkpt := (s.frame f).journal.sinceCkpt + journalLength body } := by
  simp [State.stageRecord]

/-- Without records lost there is no GAP to stage. -/
theorem State.stageGap_of_none (h : (s.frame f).journal.lost = none) : s.stageGap f = s := by
  simp [State.stageGap, h]

/-- R107: once there is space the lost JSEQs are named in a GAP record, and the frame is marked. -/
theorem State.stageGap_of_some {first last : Nat} (h : (s.frame f).journal.lost = some (first, last))
    (hfits : s.stageFits f (journalLength (.gap first last)) = true) :
    s.stageGap f = { (s.stageRecord 0 f 0xFFFF 0xFFFFFFFF false (.gap first last)).modFrame f fun x =>
        { x with journal := { x.journal with lost := none, gapShards := x.shardsOf f } } with
      gapFrames := setBit s.gapFrames f true } := by
  simp only [State.stageGap, h, hfits, if_true, State.modFrame_eq, State.setFrame_gapFrames, State.stageRecord_gapFrames]

@[simp] theorem State.stageGap_offJournal : (s.stageGap f).offJournal = s.offJournal := by
  unfold State.stageGap
  split
  · rfl
  · split
    · exact s.stageRecord_offJournal f _ _ _ _ _
    · rfl

/-- What is staged, lost or begun for the journal leaves the rest of the module as it is. -/
@[simp] theorem State.journalAppend_offJournal : (s.journalAppend seq0 f table row cold body).offJournal = s.offJournal := by
  unfold State.journalAppend
  split
  · rfl
  · dsimp only
    split <;> simp

theorem State.journalAppend_of_not_primary (h : s.twin.role ≠ 1) : s.journalAppend seq0 f table row cold body = s := by
  simp [State.journalAppend, h]

variable {s f body} (hrole : s.twin.role = 1) (hlost : (s.frame f).journal.lost = none)
include hrole hlost

theorem State.journalAppend_fits (hfits : s.stageFits f (journalLength body) = true) :
    s.journalAppend seq0 f table row cold body = (s.stageRecord seq0 f table row cold body).checkpointStart f := by
  simp [State.journalAppend, hrole, s.stageGap_of_none f hlost, hfits, hlost]

theorem State.journalAppend_lost (hfull : s.stageFits f (journalLength body) = false) :
    s.journalAppend seq0 f table row cold body = s.modFrame f fun x => { x with journal := { x.journal with
      nextJseq := (s.frame f).journal.nextJseq + 1,
      lost := some ((s.frame f).journal.nextJseq, (s.frame f).journal.nextJseq) } } := by
  simp [State.journalAppend, hrole, s.stageGap_of_none f hlost, hfull, hlost]

end Append

/-- A bay is off the journal's way. -/
theorem State.bay_eq_of_offJournal {s t : State} (h : t.offJournal = s.offJournal) (k : Bay) : t.bay k = s.bay k := by
  cases k
  · exact (congrArg State.bayA h :)
  · exact (congrArg State.bayB h :)

theorem State.mem_eq_of_offJournal {s t : State} (h : t.offJournal = s.offJournal) : t.mem = s.mem :=
  (congrArg State.mem h :)

end Sys2Proof.Machine
end

section
/-! SUPPORT. The journal's records as bytes, and their way to the saggars: appended, drained, acknowledged, named in a GAP, checkpointed. -/

namespace Sys2Proof.Machine

/-! ## Records as bytes (R105, R106) -/

theorem journalType_le (b : JournalBody) : journalType b ≤ 8 := by
  cases b with
  | carry op =>
    show (if op.opcode = 2 then 2 else 1) ≤ 8
    split <;> omega
  | _ => simp [journalType]

/-- The 28 B before the CRC of a record. -/
def recordHead (r : JournalRec) : List Byte :=
  leBytes 2 (journalType r.body) ++ leBytes 2 (journalLength r.body) ++ leBytes 1 r.frame ++ leBytes 1 (bit r.cold) ++
    leBytes 2 r.table ++ leBytes 8 r.jseq ++ leBytes 8 r.mseq ++ leBytes 4 r.row

theorem recordHeader_eq (r : JournalRec) (crc : Nat) : recordHeader r crc = recordHead r ++ leBytes 4 crc := rfl

theorem length_recordHead (r : JournalRec) : (recordHead r).length = 28 := by simp [recordHead]

/-- R105: the fields before the CRC. -/
theorem fieldAt_recordHead {r : JournalRec} (hframe : r.frame < 256) (htable : r.table < 65536) (hjseq : r.jseq < 2 ^ 64)
    (hmseq : r.mseq < 2 ^ 64) (hrow : r.row < 2 ^ 32) (hlen : journalLength r.body < 65536) :
    fieldAt (recordHead r) 0 2 = journalType r.body ∧ fieldAt (recordHead r) 2 2 = journalLength r.body ∧
    fieldAt (recordHead r) 4 1 = r.frame ∧ fieldAt (recordHead r) 5 1 = bit r.cold ∧ fieldAt (recordHead r) 6 2 = r.table ∧
    fieldAt (recordHead r) 8 8 = r.jseq ∧ fieldAt (recordHead r) 0x10 8 = r.mseq ∧ fieldAt (recordHead r) 0x18 4 = r.row := by
  have htype := journalType_le r.body
  have hcold := bit_le r.cold
  simp only [recordHead]
  simp [fieldAt_append_right, fieldAt_append_left, fieldAt_leBytes]
  refine ⟨?_, ?_, ?_, ?_, ?_, ?_, ?_, ?_⟩ <;> omega

/-- A record is the 28 B before its CRC, the CRC of the record with the CRC field 0, and the padded body. -/
theorem journalBytes_eq (r : JournalRec) : ∃ body, journalBytes r =
    recordHead r ++ (leBytes 4 (crc32 (recordHead r ++ leBytes 4 0 ++ body)) ++ body) :=
  ⟨padTo (journalLength r.body - 32) (recordBody r), by simp [journalBytes, recordHeader_eq]⟩

/-- R105: the CRC stands at byte 0x1C, and covers the record with the CRC field 0. -/
theorem journalBytes_crc (r : JournalRec) : let bs := journalBytes r
    fieldAt bs 0x1C 4 = crc32 (bs.take 0x1C ++ [0, 0, 0, 0] ++ bs.drop 0x20) % 2 ^ 32 := by
  intro bs
  have hhead := length_recordHead r
  obtain ⟨body, hbs⟩ : ∃ body, bs = _ := journalBytes_eq r
  have htake : bs.take 0x1C = recordHead r := by rw [hbs, List.take_left' hhead]
  have hdrop : bs.drop 0x20 = body := by rw [hbs, ← List.append_assoc, List.drop_left' (by simp [hhead])]
  rw [htake, hdrop, show ([0, 0, 0, 0] : List Byte) = leBytes 4 0 from rfl, hbs, fieldAt_append_right _ _ (by omega),
    fieldAt_append_left _ (by simp [hhead]), hhead]
  exact fieldAt_leBytes 4 _

/-- R2, R105, R106: a journal record as bytes. -/
theorem journalBytes_layout {r : JournalRec} (hframe : r.frame < 256) (htable : r.table < 65536) (hjseq : r.jseq < 2 ^ 64)
    (hmseq : r.mseq < 2 ^ 64) (hrow : r.row < 2 ^ 32) (hlen : journalLength r.body < 65536) :
    let bs := journalBytes r
    fieldAt bs 0 2 = journalType r.body ∧ fieldAt bs 2 2 = journalLength r.body ∧ fieldAt bs 4 1 = r.frame ∧
    fieldAt bs 5 1 = bit r.cold ∧ fieldAt bs 6 2 = r.table ∧ fieldAt bs 8 8 = r.jseq ∧ fieldAt bs 0x10 8 = r.mseq ∧
    fieldAt bs 0x18 4 = r.row ∧ fieldAt bs 0x1C 4 = crc32 (bs.take 0x1C ++ [0, 0, 0, 0] ++ bs.drop 0x20) % 2 ^ 32 := by
  intro bs
  have hfield : ∀ off n, off + n ≤ 28 → fieldAt bs off n = fieldAt (recordHead r) off n := fun off n h => by
    have hlen' := length_recordHead r
    obtain ⟨body, hbs⟩ : ∃ body, bs = _ := journalBytes_eq r
    rw [hbs, fieldAt_append_left _ (by omega)]
  obtain ⟨htype, hlength, hframe', hcold, htable', hjseq', hmseq', hrow'⟩ :=
    fieldAt_recordHead hframe htable hjseq hmseq hrow hlen
  exact ⟨(hfield _ _ (by omega)).trans htype, (hfield _ _ (by omega)).trans hlength, (hfield _ _ (by omega)).trans hframe',
    (hfield _ _ (by omega)).trans hcold, (hfield _ _ (by omega)).trans htable', (hfield _ _ (by omega)).trans hjseq',
    (hfield _ _ (by omega)).trans hmseq', (hfield _ _ (by omega)).trans hrow', journalBytes_crc r⟩

/-! ## JOURNAL_DRAIN and JOURNAL_ACK (R104, R437) -/

/-- A record that a saggar holds is no longer staged. -/
theorem Frame.not_mem_dropRecord_self (x : Frame) (r : JournalRec) (mib : Nat) : r ∉ (x.dropRecord r mib).journal.ring := by
  unfold Frame.dropRecord
  dsimp only
  split
  · simp
  · simp_all

theorem Frame.not_mem_dropRecord {x : Frame} {r : JournalRec} (h : r ∉ x.journal.ring) (q : JournalRec) (mib : Nat) :
    r ∉ (x.dropRecord q mib).journal.ring := by
  unfold Frame.dropRecord
  dsimp only
  split
  · exact fun hmem => h (List.mem_filter.mp hmem).1
  · exact h

/-- A record leaves the staging ring of its frame. -/
def State.dropStaged (s : State) (r : JournalRec) : State := s.modFrame r.frame fun x => x.dropRecord r s.mbLive.stageMib

theorem State.dropStaged_offJournal (s : State) (r : JournalRec) : (s.dropStaged r).offJournal = s.offJournal := rfl

theorem State.not_mem_ring_dropStaged {s : State} {r : JournalRec} (q : JournalRec)
    (h : r = q ∨ r ∉ (s.frame r.frame).journal.ring) : r ∉ ((s.dropStaged q).frame r.frame).journal.ring := by
  by_cases hf : q.frame = r.frame
  · rw [State.dropStaged, State.modFrame_eq, hf, State.frame_setFrame_same]
    rcases h with rfl | h
    · exact Frame.not_mem_dropRecord_self _ r _
    · exact Frame.not_mem_dropRecord h q _
  · rcases h with rfl | h
    · exact absurd rfl hf
    · rwa [State.dropStaged, State.modFrame_eq, s.frame_setFrame_ne _ hf]

/-- The records acknowledged are staged no more, in whichever order they are dropped. -/
theorem State.not_mem_ring_dropAll (recs : List JournalRec) (s : State) (r : JournalRec)
    (h : r ∈ recs ∨ r ∉ (s.frame r.frame).journal.ring) :
    r ∉ ((s.forEach recs State.dropStaged).frame r.frame).journal.ring := by
  induction recs generalizing s with
  | nil => simpa using h
  | cons q recs ih =>
    rw [State.forEach_cons]
    rcases h with h | h
    · rcases List.mem_cons.mp h with heq | hmem
      · exact ih _ (.inr (State.not_mem_ring_dropStaged q (.inl heq)))
      · exact ih _ (.inl hmem)
    · exact ih _ (.inr (State.not_mem_ring_dropStaged q (.inr h)))

/-- R104, R437: what a bay takes next, in order. -/
theorem journalDrain_effect {f : Nat} (count : Nat) {k : Bay} {s : State} (hf : frameOk f = true) (hup : s.up = true)
    (hbay : s.bayFor f = some k) (hfenced : (s.frame (s.bayFrame k)).fenced = false)
    (hkiln : (s.frame (s.bayFrame k)).kiln.absent = false) :
    let j := (s.frame f).journal
    let recs := (j.ring.drop j.sent).take count
    Runs (.journalDrain f count) s fun t => (t.bay k).sent = (s.bay k).sent ++ recs ∧
      (t.frame f).journal = { j with sent := j.sent + recs.length } ∧ t.mem = s.mem := by
  refine runs_of_when rfl hf hup ?_
  simp [hbay, hfenced, hkiln]

/-- R107, R437: what a saggar acknowledges it holds, and the staging rings no longer do. -/
theorem journalAck_effect (count : Nat) {k : Bay} {s : State} (hup : s.up = true) (htakes : (s.bay k).takes = true) :
    let recs := (s.bay k).sent.take count
    Runs (.journalAck k count) s fun t => (t.bay k).sent = (s.bay k).sent.drop count ∧
      (t.bay k).held = (s.bay k).held ++ recs ∧ (∀ r ∈ recs, r ∉ (t.frame r.frame).journal.ring) ∧ t.mem = s.mem := by
  intro recs
  refine runs_of_when rfl rfl (by rw [hup, htakes]; rfl) ?_
  dsimp only
  generalize hu : s.changeBay k _ = u
  have hoff : (u.forEach recs State.dropStaged).offJournal = u.offJournal :=
    State.forEach_same State.offJournal State.dropStaged_offJournal u recs
  have hbay := State.bay_eq_of_offJournal hoff k
  have hmem := State.mem_eq_of_offJournal hoff
  refine ⟨?_, ?_, fun r hr => State.not_mem_ring_dropAll recs u r (.inl hr), ?_⟩
  · exact (congrArg BayState.sent hbay).trans (by simp [← hu])
  · exact (congrArg BayState.held hbay).trans (by simp [← hu, recs])
  · exact hmem.trans (by simp [← hu])

/-! ## GAP_RECORD and CHECKPOINT_SHARD (R107, R108) -/

theorem inMask_setBit_true {n i : Nat} (m : BitVec n) (h : i < n) : inMask (setBit m i true) i = true := by
  simp only [inMask, setBit, if_true, BitVec.getLsbD_or, BitVec.getLsbD_ofNat, Nat.testBit_two_pow_self, h, decide_true,
    Bool.and_self, Bool.or_true]

/-- R107: the GAP record stands at the end of the ring, and the frame is marked. -/
theorem gapRecord_effect {f : Nat} {s : State} (hf : frameOk f = true) (hup : s.up = true) (hrole : s.twin.role = 1)
    {first last : Nat} (hlost : (s.frame f).journal.lost = some (first, last))
    (hfits : s.stageFits f (journalLength (.gap first last)) = true) : Runs (.gapRecord f) s fun t =>
      (t.frame f).journal.ring = (s.frame f).journal.ring ++
        [⟨f, false, 0xFFFF, (s.frame f).journal.nextJseq, 0, 0xFFFFFFFF, .gap first last⟩] ∧
      (t.frame f).journal.lost = none ∧ (f < 20 → inMask t.gapFrames f = true) ∧ t.mem = s.mem := by
  refine runs_of_when rfl hf (by simp [hup, hrole]) ?_
  have hoff := s.stageGap_offJournal f
  have hgap := s.stageGap_of_some f hlost hfits
  have hframe : ∀ (t : State) (m : BitVec 20) (g : Nat), ({ t with gapFrames := m } : State).frame g = t.frame g :=
    fun _ _ _ => rfl
  refine ⟨?_, ?_, fun hlt => ?_, State.mem_eq_of_offJournal hoff⟩
  · rw [hgap, hframe]
    simp [State.nextRecord, State.mseq, changesMemory]
  · rw [hgap, hframe]
    simp
  · rw [hgap]
    exact inMask_setBit_true _ hlt

/-- A shard that is done is not left to do. -/
theorem Journal.not_mem_shardDone (j : Journal) (k : Nat × Nat) : k ∉ (j.shardDone k).ckptLeft.getD [] := by
  unfold Journal.shardDone
  dsimp only
  split
  · simp
  · cases j.ckptLeft <;> simp

theorem BayState.mem_keep (b : BayState) (c : Checkpoint) : c ∈ (b.keep c).ckpts := by simp [BayState.keep]

theorem State.clearGap_keeps (s : State) (f : Nat) :
    (s.clearGap f).offJournal = s.offJournal ∧ ∀ g, (s.clearGap f).frame g = s.frame g := by
  unfold State.clearGap
  split <;> exact ⟨rfl, fun _ => rfl⟩

theorem State.clearLate_keeps (s : State) (f : Nat) (b : Bool) :
    (s.clearLate f b).offJournal = s.offJournal ∧ ∀ g, (s.clearLate f b).frame g = s.frame g := by
  unfold State.clearLate
  split <;> exact ⟨rfl, fun _ => rfl⟩

/-- A shard whose checkpoint is written counts as live, and its frame's GAP and CKPT_LATE are looked at again. -/
def State.restoredShard (s : State) (f : Nat) (shard : Nat × Nat) (complete : Bool) : State :=
  (({ s with restored := s.restored ++ [shard] } : State).clearGap f).clearLate f complete

theorem State.restoredShard_keeps (s : State) (f : Nat) (shard : Nat × Nat) (complete : Bool) :
    (s.restoredShard f shard complete).mem = s.mem ∧ (∀ k, (s.restoredShard f shard complete).bay k = s.bay k) ∧
    (s.restoredShard f shard complete).frame f = s.frame f ∧ shard ∈ (s.restoredShard f shard complete).restored := by
  obtain ⟨hgap, hgapFrame⟩ := ({ s with restored := s.restored ++ [shard] } : State).clearGap_keeps f
  obtain ⟨hlate, hlateFrame⟩ :=
    (({ s with restored := s.restored ++ [shard] } : State).clearGap f).clearLate_keeps f complete
  have hoff := hlate.trans hgap
  have hrestored : (s.restoredShard f shard complete).restored = s.restored ++ [shard] := (congrArg State.restored hoff :)
  refine ⟨(congrArg State.mem hoff :), fun k => (State.bay_eq_of_offJournal hoff k).trans ?_, ?_, by simp [hrestored]⟩
  · cases k <;> rfl
  · exact (hlateFrame f).trans (hgapFrame f)

/-- R108, R462: a shard of the checkpoint in progress is written to its bay, and is not left to do. -/
theorem checkpointShard_effect {f table shard : Nat} {k : Bay} {s : State} {t : Table} {sh : ShardEntry}
    (hf : frameOk f = true) (hup : s.up = true) (hrole : s.twin.role = 1) (hkiln : (s.frame f).kiln.absent = false)
    (htable : s.tableAt f table = some t) (hbay : s.bayFor f = some k) (hshard : t.shard shard = some sh)
    (hframe : sh.frame = f) (hleft : (((s.frame f).journal.ckptLeft).getD []).contains (table, shard) = true)
    (hfits : s.stageFits f (journalLength (.checkpoint shard ((s.frame f).journal.nextJseq - 1))) = true)
    (hlost : (s.frame f).journal.lost = none) : Runs (.checkpointShard f table shard) s fun v =>
      ⟨f, table, shard, (s.frame f).journal.nextJseq - 1, (List.range sh.localRows).map fun i => s.checkpointRow t sh i⟩ ∈
        (v.bay k).ckpts ∧
      (table, shard) ∉ ((v.frame f).journal.ckptLeft.getD []) ∧ (table, shard) ∈ v.restored ∧ v.mem = s.mem := by
  refine runs_of_when rfl hf (by simp [State.movesRows, hup, hrole, hkiln]) ?_
  simp only [htable, hbay, hshard, hleft, hframe, hfits, hlost, Bool.true_or, decide_true, Bool.and_self, State.when_true]
  generalize hckpt : Checkpoint.mk f table shard ((s.frame f).journal.nextJseq - 1)
    ((List.range sh.localRows).map fun i => s.checkpointRow t sh i) = ckpt
  generalize hu : s.changeBay k _ = u
  generalize hv : State.modFrame _ f _ = v
  have hoff : v.offJournal = u.offJournal := by rw [← hv]; simp
  obtain ⟨hmem, hbays, hframes, hrestored⟩ := v.restoredShard_keeps f (table, shard) ((s.frame f).journal.lastShard (table, shard))
  refine ⟨?_, ?_, hrestored, ?_⟩
  · have hkept : (v.bay k).ckpts = ((s.bay k).keep ckpt).ckpts := by
      rw [State.bay_eq_of_offJournal hoff, ← hu, State.bay_changeBay_same, BayState.wrote_ckpts]
    exact (congrArg (ckpt ∈ ·) ((congrArg BayState.ckpts (hbays k)).trans hkept)).mpr (BayState.mem_keep _ _)
  · have hdone : ∃ j : Journal, (v.frame f).journal = j.shardDone (table, shard) := ⟨_, by rw [← hv]; simp; rfl⟩
    obtain ⟨j, hj⟩ := hdone
    exact (congrArg (fun x : Frame => (table, shard) ∉ x.journal.ckptLeft.getD []) hframes).mpr (hj ▸ j.not_mem_shardDone _)
  · exact hmem.trans ((State.mem_eq_of_offJournal hoff).trans (by rw [← hu, State.changeBay_mem]))

/-! ## The clauses of JOURNAL_APPEND and MSEQ (R104, R105, R107) -/

/-- A record that fits is staged with the next JSEQ; one that does not is lost. -/
theorem journalAppend_effect {s : State} (seq0 : Nat) {f : Nat} (table row : Nat) (cold : Bool) {body : JournalBody}
    (hrole : s.twin.role = 1) (hlost : (s.frame f).journal.lost = none) :
    let j := (s.frame f).journal
    let t := s.journalAppend seq0 f table row cold body
    let k := (t.frame f).journal
    k.nextJseq = j.nextJseq + 1 ∧ t.mem = s.mem ∧ t.beads = s.beads ∧ t.cmds = s.cmds ∧
    (s.stageFits f (journalLength body) = true →
      k.ring = j.ring ++ [⟨f, cold, table, j.nextJseq, s.mseq seq0 f cold body, row, body⟩] ∧ k.lost = none ∧
      k.ringBytes = j.ringBytes + journalLength body) ∧
    (s.stageFits f (journalLength body) = false → k.ring = j.ring ∧ k.lost = some (j.nextJseq, j.nextJseq)) := by
  intro j t k
  have hoff := s.journalAppend_offJournal f seq0 table row cold body
  have hkept : t.mem = s.mem ∧ t.beads = s.beads ∧ t.cmds = s.cmds :=
    ⟨(congrArg State.mem hoff :), (congrArg State.beads hoff :), (congrArg State.cmds hoff :)⟩
  obtain ⟨hmem, hbeads, hcmds⟩ := hkept
  cases hfits : s.stageFits f (journalLength body) with
  | true =>
    obtain ⟨left, hj⟩ := (s.stageRecord seq0 f table row cold body).checkpointStart_journal f
    rw [← State.journalAppend_fits seq0 table row cold hrole hlost hfits, State.stageRecord_journal] at hj
    refine ⟨(congrArg Journal.nextJseq hj :), hmem, hbeads, hcmds, fun _ => ?_, nofun⟩
    exact ⟨(congrArg Journal.ring hj :), (congrArg Journal.lost hj :).trans hlost, (congrArg Journal.ringBytes hj :)⟩
  | false =>
    have hj : k = { j with nextJseq := j.nextJseq + 1, lost := some (j.nextJseq, j.nextJseq) } := by
      simp only [k, t, State.journalAppend_lost seq0 table row cold hrole hlost hfits, State.modFrame_eq,
        State.frame_setFrame_same, j]
    refine ⟨(congrArg Journal.nextJseq hj :), hmem, hbeads, hcmds, nofun, fun _ => ?_⟩
    exact ⟨(congrArg Journal.ring hj :), (congrArg Journal.lost hj :)⟩

/-- R105: MSEQ names the last stream record of the change, if it wrote memory and produced one. -/
theorem mseq_effect (s : State) (seq0 f : Nat) (cold : Bool) (body : JournalBody) :
    (changesMemory cold body = true → seq0 < (s.frame f).stream.nextSeq →
      s.mseq seq0 f cold body + 1 = (s.frame f).stream.nextSeq) ∧
    (changesMemory cold body = false ∨ (s.frame f).stream.nextSeq ≤ seq0 → s.mseq seq0 f cold body = 0) := by
  unfold State.mseq
  refine ⟨fun hchanges hseq => ?_, fun h => if_neg ?_⟩
  · rw [if_pos ⟨hchanges, hseq⟩]
    omega
  · rintro ⟨hchanges, hseq⟩
    rcases h with h | h
    · simp [hchanges] at h
    · omega

end Sys2Proof.Machine
end

section
/-! SUPPORT. JOURNAL_REPLAY: applying a record changes no bay, so a replay meets each record that the bays hold once; and O37. -/

namespace Sys2Proof.Machine

/-! ## Applying a record changes no bay -/

/-- The two bays of the module. -/
def State.bays (s : State) : BayState × BayState := (s.bayA, s.bayB)

section Bays
variable (s : State)

@[simp] theorem State.bays_setFrame (f : Nat) (x : Frame) : (s.setFrame f x).bays = s.bays := rfl

@[simp] theorem State.bays_journalAppend (seq0 f table row : Nat) (cold : Bool) (body : JournalBody) :
    (s.journalAppend seq0 f table row cold body).bays = s.bays := by
  have hoff := s.journalAppend_offJournal f seq0 table row cold body
  exact Prod.ext (congrArg State.bayA hoff :) (congrArg State.bayB hoff :)

@[simp] theorem State.bays_vector1All : s.vector1All.bays = s.bays :=
  State.forEach_same (g := State.vector1) (·.bays) (fun _ _ => rfl) s _

@[simp] theorem State.bays_holdEvents (f : Nat) : (s.holdEvents f).bays = s.bays := by
  refine State.forEach_same (·.bays) (fun t h => ?_) s _
  refine (State.forEach_same (g := State.countHeld) (·.bays) (fun _ _ => rfl) _ _).trans ?_
  dsimp only
  split
  · rfl
  · exact t.bays_setFrame h _

@[simp] theorem State.bays_setMirror (f v : Nat) : (s.setMirror f v).bays = s.bays := by
  unfold State.setMirror
  split
  · rfl
  · dsimp only [State.when]
    split
    · rw [State.bays_holdEvents, State.bays_vector1All]; rfl
    · rw [State.bays_vector1All]; rfl

theorem State.bays_markDirty (u : Unit64) : (s.markDirty u).bays = s.bays := by
  unfold State.markDirty
  dsimp only
  split
  · rw [State.bays_setMirror]; rfl
  · rfl

theorem State.bays_sendRecord (f : Nat) (r : StreamRec) : (s.sendRecord f r).bays = s.bays := by
  unfold State.sendRecord
  split <;> rfl

@[simp] theorem State.bays_streamBurst (u : Unit64) : (s.streamBurst u).bays = s.bays := by
  unfold State.streamBurst
  split
  · dsimp only
    split
    · split
      · rw [State.bays_sendRecord]; rfl
      · rw [State.bays_setMirror, State.bays_sendRecord]; rfl
    · rw [State.bays_markDirty]; rfl
  · rfl

@[simp] theorem State.bays_writeDev (p : Place) (bs : List Byte) : (s.writeDev p bs).bays = s.bays :=
  (State.forEach_same (·.bays) (fun t u => t.bays_streamBurst u) _ _).trans rfl

@[simp] theorem State.bays_writeBurst (u : Unit64) (data side : List Byte) : (s.writeBurst u data side).bays = s.bays :=
  (State.bays_streamBurst _ u).trans rfl

@[simp] theorem State.bays_writeRow (u : Unit64) (img : RowImage) : (s.writeRow u img).bays = s.bays :=
  State.forEach_same (·.bays) (fun t _ => t.bays_writeBurst _ _ _) s _

@[simp] theorem State.bays_addSpan (f : Nat) (e : DirEntry) (op : CarryOp) (factor : Val) :
    (s.addSpan f e op factor).bays = s.bays :=
  State.forEach_same (·.bays) (fun t _ => (State.bays_setFrame _ f _).trans (t.bays_writeBurst _ _ _)) s _

@[simp] theorem State.bays_applyOp (t : Table) (f : Nat) (e : DirEntry) (op : CarryOp) (src : CarrySource) :
    (s.applyOp t f e op src).bays = s.bays := by
  unfold State.applyOp
  split
  · simp
  · split
    · rfl
    · simp

/-- The kiln's own operation, which nothing waits for. -/
theorem State.bays_recordCold (f : Nat) (op : CarryOp) : (s.recordCold f op .kiln).bays = s.bays := by
  unfold State.recordCold
  split
  · exact (State.bays_journalAppend _ _ _ _ _ _ _).trans rfl
  · rfl

@[simp] theorem State.bays_applyCold (f : Nat) (r : RowAt) (table row : Nat) (e : DirEntry) :
    (s.applyCold f r table row e).bays = s.bays := by
  refine (State.forEach_same (·.bays) (fun t c => ?_) s _)
  split
  · rfl
  · exact t.bays_applyOp _ _ _ _ _

@[simp] theorem State.bays_setEntryWord (r : RowAt) (w : Word64) : (s.setEntryWord r w).bays = s.bays :=
  s.bays_writeDev _ _

theorem State.bays_replayMove (f : Nat) (r : RowAt) (j : JournalRec) (old new : Word64) :
    (s.replayMove f r j old new).bays = s.bays := by
  unfold State.replayMove
  dsimp only
  split
  · rfl
  · split
    · simp
    · split <;> simp

/-- R109: a record that is applied changes no bay. -/
theorem State.bays_replayRow (f : Nat) (r : RowAt) (j : JournalRec) : (s.replayRow f r j).bays = s.bays := by
  unfold State.replayRow
  split
  · dsimp only
    split
    · simp
    · exact s.bays_recordCold f _
  · simp
  · split
    · rfl
    · simp
  · exact s.bays_replayMove f r j _ _
  · rfl
  · rfl
  · rfl

end Bays

/-! ## What a replay finds in the bays (R103, R109) -/

/-- The bays hold no checkpoint, the second no record either. -/
def State.plainBays (s : State) : Prop := s.bays.1.ckpts = [] ∧ s.bays.2.ckpts = [] ∧ s.bays.2.held = []

section Found
variable {s : State} (h : s.plainBays) (f mask : Nat)
include h

theorem State.dueCheckpoints_of_plain : s.dueCheckpoints f mask = [] := by
  obtain ⟨ha, hb, -⟩ := h
  have ha' : s.bayA.ckpts = [] := ha
  have hb' : s.bayB.ckpts = [] := hb
  unfold State.dueCheckpoints State.readBays
  split
  · rfl
  · dsimp only
    split <;> split <;> simp [ha', hb']

/-- A frame that no record of the first bay names has none to replay. -/
theorem State.heldRecords_none (hheld : ∀ r ∈ s.bays.1.held, r.frame ≠ f) : s.heldRecords f mask = [] := by
  obtain ⟨-, -, hb⟩ := h
  have hb' : s.bayB.held = [] := hb
  have hheld' : ∀ r ∈ s.bayA.held, r.frame ≠ f := hheld
  have ha : s.bayA.held.filter (fun r => decide (r.frame = f)) = [] := by
    simpa [List.filter_eq_nil_iff] using hheld'
  unfold State.heldRecords State.readBays
  dsimp only
  split <;> split <;> simp [ha, hb']

/-- The one record that an online bay of the mask holds is found for its frame. -/
theorem State.heldRecords_one {j : JournalRec} (hheld : s.bays.1.held = [j]) (hstate : s.bays.1.state = 4)
    (hmask : mask % 2 = 1) : s.heldRecords j.frame mask = [j] := by
  obtain ⟨-, -, hb⟩ := h
  have hb' : s.bayB.held = [] := hb
  have ha : s.bayA.held = [j] := hheld
  have hs : s.bayA.state = 4 := hstate
  have hreads : (bitAt mask 0 &&
      decide (s.bayA.state = 3 ∨ s.bayA.state = 4 ∨ s.bayA.state = 5 ∨ s.bayA.state = 6)) = true := by
    simp [bitAt, hmask, hs]
  unfold State.heldRecords State.readBays
  dsimp only
  rw [if_pos hreads]
  split <;> simp [ha, hb', insertRec]

end Found

/-! ## A replay, frame by frame -/

theorem Replay.frame_of_plain {x : Replay} (h : x.s.plainBays) (f mask last : Nat) :
    x.frame f mask last = ((x.s.heldRecords f mask).filter fun r =>
        (afterSeq last (x.s.heldRecords f mask)).contains r).foldl (fun y r => y.next f r) { x with stopped := [] } := by
  simp [Replay.frame, State.dueCheckpoints_of_plain h, State.restoreFrame]

/-- Frames without records leave the replay as it is. -/
theorem Replay.foldl_idle (mask : Nat) (lasts : List Nat) (fs : List Nat) {x : Replay} (hx : x.stopped = [])
    (h : x.s.plainBays) (hheld : ∀ f ∈ fs, ∀ r ∈ x.s.bays.1.held, r.frame ≠ f) :
    fs.foldl (fun (y : Replay) f => y.frame f mask (lasts.getD f 0)) x = x := by
  induction fs with
  | nil => rfl
  | cons f fs ih =>
    have hidle : x.frame f mask (lasts.getD f 0) = x := by
      rw [Replay.frame_of_plain h, State.heldRecords_none h f mask (hheld f List.mem_cons_self)]
      obtain ⟨⟩ := x
      subst hx
      rfl
    rw [List.foldl_cons, hidle]
    exact ih fun g hg => hheld g (List.mem_cons_of_mem f hg)

/-- A record of a change, as a replay meets it. -/
def changesRow : JournalBody → Prop
  | .carry _ | .rowWrite _ _ | .switch _ _ | .relocate _ _ => True
  | .checkpoint _ _ | .epochStart _ _ _ | .gap _ _ => False

theorem Replay.next_of_change {x : Replay} {f : Nat} {j : JournalRec} {t : Table} {r : RowAt} (hx : x.stopped = [])
    (htable : x.s.tableAt f j.table = some t) (hrow : t.rowAt j.row = some r) (hbody : changesRow j.body) :
    x.next f j = { x with applied := x.applied + 1, s := x.s.replayRow f r j } := by
  unfold Replay.next
  split
  · simp_all [changesRow]
  · simp_all [changesRow]
  · simp_all [changesRow]
  · simp [htable, hrow, hx]

/-- The frames of the module, with one of them in its place. -/
theorem range20_split {f : Nat} (hf : frameOk f = true) : ∃ before after, List.range 20 = before ++ f :: after ∧
    (∀ g ∈ before, f ≠ g) ∧ ∀ g ∈ after, f ≠ g := by
  have hlt : f < 20 := of_decide_eq_true hf
  obtain ⟨before, after, heq⟩ := List.append_of_mem (List.mem_range.mpr hlt)
  have hnodup : (before ++ f :: after).Nodup := heq ▸ List.nodup_range
  obtain ⟨-, htail, hdisjoint⟩ := List.nodup_append.mp hnodup
  have hafter := (List.nodup_cons.mp htail).1
  exact ⟨before, after, heq, fun g hg => (hdisjoint g hg f List.mem_cons_self).symm, fun g hg e => hafter (e ▸ hg)⟩

/-- The replay of the module's frames (R109). -/
def State.replayAll (s : State) (mask : Nat) (lasts : List Nat) : Replay :=
  (List.range 20).foldl (fun (y : Replay) f => y.frame f mask (lasts.getD f 0)) ⟨[], 0, s⟩

theorem State.replayAll_none {s : State} (h : s.plainBays) (hheld : s.bays.1.held = []) (mask : Nat) (lasts : List Nat) :
    s.replayAll mask lasts = ⟨[], 0, s⟩ :=
  Replay.foldl_idle mask lasts _ rfl h fun f _ r hr => by rw [hheld] at hr; cases hr

section One
variable {s : State} {j : JournalRec} {mask : Nat} (lasts : List Nat) (h : s.plainBays) (hheld : s.bays.1.held = [j])
  (hstate : s.bays.1.state = 4) (hmask : mask % 2 = 1) (hf : frameOk j.frame = true)
include h hheld hstate hmask hf

omit hstate hmask in
/-- One record: the frames before and after its own change nothing. -/
theorem State.replayAll_one {y : Replay} (hy : (⟨[], 0, s⟩ : Replay).frame j.frame mask (lasts.getD j.frame 0) = y)
    (hstopped : y.stopped = []) (hbays : y.s.bays = s.bays) : s.replayAll mask lasts = y := by
  obtain ⟨before, after, hrange, hbefore, hafter⟩ := range20_split hf
  rw [State.replayAll, hrange, List.foldl_append, List.foldl_cons,
    Replay.foldl_idle mask lasts before rfl h (by simpa [hheld] using hbefore), hy]
  refine Replay.foldl_idle mask lasts after hstopped ?_ (by simpa [hbays, hheld] using hafter)
  unfold State.plainBays
  rw [hbays]
  exact h

/-- A record after the last SEQ that the secondary has written is applied. -/
theorem State.replayAll_applied {t : Table} {r : RowAt} (htable : s.tableAt j.frame j.table = some t)
    (hrow : t.rowAt j.row = some r) (hbody : changesRow j.body) (hlate : j.mseq = 0 ∨ lasts.getD j.frame 0 < j.mseq) :
    s.replayAll mask lasts = ⟨[], 1, s.replayRow j.frame r j⟩ := by
  refine State.replayAll_one lasts h hheld hf ?_ rfl (s.bays_replayRow _ r j)
  have hlate' : ¬(0 < j.mseq ∧ j.mseq ≤ lasts.getD j.frame 0) := by omega
  rw [Replay.frame_of_plain h, State.heldRecords_one h mask hheld hstate hmask]
  simp only [afterSeq, List.foldl_cons, List.foldl_nil, if_neg hlate', List.nil_append, List.filter_cons, List.contains_cons,
    BEq.rfl, Bool.true_or, if_true, List.filter_nil]
  exact Replay.next_of_change rfl htable hrow hbody

/-- A record up to that SEQ is not. -/
theorem State.replayAll_written (hseq : 0 < j.mseq) (hlast : j.mseq ≤ lasts.getD j.frame 0) :
    s.replayAll mask lasts = ⟨[], 0, s⟩ := by
  refine State.replayAll_one lasts h hheld hf ?_ rfl rfl
  rw [Replay.frame_of_plain h, State.heldRecords_one h mask hheld hstate hmask]
  simp only [afterSeq, List.foldl_cons, List.foldl_nil, if_pos (And.intro hseq hlast)]
  rfl

end One

/-! ## JOURNAL_REPLAY -/

/-- A command that is ready is acted on. -/
theorem onReady_of_ready {s : State} {c op : Nat} {x : Cmd} (h : Ready s c op x) (g : State → Cmd → State) :
    s.onReady c op g = g s x := by
  obtain ⟨hflight, hphase, hop, -⟩ := h
  have hheld : s.cplHeld x = false := by
    rw [State.cplHeld, hflight.2.1]
    exact held_any_of_inFlight hflight
  simp [State.onReady, hflight.1, hphase, hop, hheld]

section Exec
variable {s : State} {c : Nat} {x : Cmd} (h : Ready s c 0x31 x)
include h

/-- R96: a module that is not the primary refuses. -/
theorem exec_journalReplay_not_primary (hrole : s.twin.role ≠ 1) : exec (.journalReplay c) s = .next (s.refuse c 0x16) := by
  show execJournalReplay c s = _
  simp only [execJournalReplay, h.2.2.2, State.when_true, onReady_of_ready h, if_pos hrole, within]

theorem exec_journalReplay_unreadable (hrole : s.twin.role = 1) (hlasts : s.epochStartAt x.port x.op0.toNat = none) :
    exec (.journalReplay c) s = .next (s.refuse c 0xF0) := by
  show execJournalReplay c s = _
  simp only [execJournalReplay, h.2.2.2, State.when_true, onReady_of_ready h, hrole, ne_eq, not_true_eq_false, if_false,
    hlasts, within]

theorem exec_journalReplay_primary {lasts : List Nat} (hrole : s.twin.role = 1)
    (hlasts : s.epochStartAt x.port x.op0.toNat = some lasts) {y : Replay} (hy : s.replayAll (x.op1.toNat % 4) lasts = y) :
    exec (.journalReplay c) s = .next (y.s.completeOk c (BitVec.ofNat 64 y.applied)) := by
  subst hy
  show execJournalReplay c s = _
  simp only [execJournalReplay, h.2.2.2, State.when_true, onReady_of_ready h, hrole, ne_eq, not_true_eq_false, if_false,
    hlasts, within, State.replayAll]

end Exec

/-- Settles O37: `State.offJournal` carries what the journal's own steps leave alone, `State.bays` what the records applied by a
replay leave alone, so that the replay's walk over the frames stands still but at the frame of the one record held. -/
theorem journalReachesSaggar : Obligations.JournalReachesSaggar := by
  refine ⟨fun s seq0 f table row cold body => ?_, mseq_effect, fun r hframe htable hjseq hmseq hrow hlen =>
    journalBytes_layout hframe htable hjseq hmseq hrow hlen, fun f count k s hf hup => ?_, fun c f s x j t r lasts h => ?_⟩
  · exact ⟨fun hrole => s.journalAppend_of_not_primary f seq0 table row cold body hrole,
      fun hrole hlost => journalAppend_effect seq0 table row cold hrole hlost⟩
  · exact ⟨fun hbay hfenced hkiln => journalDrain_effect count hf hup hbay hfenced hkiln,
      fun htakes => journalAck_effect count hup htakes,
      fun first last hrole hlost hfits => gapRecord_effect hf hup hrole hlost hfits,
      fun table shard t sh hrole hkiln htable hbay hshard hframe hleft hfits hlost =>
        checkpointShard_effect hf hup hrole hkiln htable hbay hshard hframe hleft hfits hlost⟩
  · refine ⟨fun hrole => ?_, fun hrole hlasts => ?_, fun hrole hlasts hckptA hckptB hheldB => ⟨fun hheld => ?_, ?_⟩⟩
    · exact exec_journalReplay_not_primary h hrole
    · exact exec_journalReplay_unreadable h hrole hlasts
    · exact exec_journalReplay_primary h hrole hlasts (State.replayAll_none ⟨hckptA, hckptB, hheldB⟩ hheld _ lasts)
    · rintro hheld hstate hmask rfl hf htable hrow hkind
      have hbody : changesRow j.body := by
        rcases hkind with ⟨_, hb⟩ | ⟨_, _, hb⟩ | ⟨_, _, hb⟩ | ⟨_, _, hb⟩ <;> rw [hb] <;> trivial
      have hmask' : x.op1.toNat % 4 % 2 = 1 := by omega
      have hplain : s.plainBays := ⟨hckptA, hckptB, hheldB⟩
      exact ⟨fun hlate => exec_journalReplay_primary h hrole hlasts
          (State.replayAll_applied lasts hplain hheld hstate hmask' hf htable hrow hbody hlate),
        fun hseq hlast => exec_journalReplay_primary h hrole hlasts
          (State.replayAll_written lasts hplain hheld hstate hmask' hf hseq hlast)⟩

end Sys2Proof.Machine
end

section
/-! SUPPORT. Rods: their groups, a rod that fails, the test of a rod and how its partition shows the result; and O46. -/

namespace Sys2Proof.Machine

theorem mem_append_unless_contains {α : Type} [BEq α] [LawfulBEq α] (l : List α) (a : α) :
    a ∈ if l.contains a then l else l ++ [a] := by
  split
  · exact List.contains_iff_mem.mp ‹_›
  · exact List.mem_append_right l (List.mem_singleton_self a)

/-! ## Rod groups of a frame -/

@[simp] theorem Frame.group_setGroup_same (x : Frame) (k : Nat) (g : Group) : (x.setGroup k g).group k = g := by
  simp [Frame.group, Frame.setGroup]

@[simp] theorem State.group_modGroup (s : State) (f k : Nat) (h : Group → Group) :
    ((s.modGroup f k h).frame f).group k = h ((s.frame f).group k) := by
  simp [State.modGroup]

theorem OnlyFrame.modGroup (s : State) (f k : Nat) (h : Group → Group) : OnlyFrame f s (s.modGroup f k h) :=
  OnlyFrame.setFrame s f _

/-! ## Frame actions that are requested on one frame (R39) -/

/-- The frame with an action requested. -/
def Frame.request (x : Frame) (a : FrameAction) : Frame :=
  if x.actions.contains a then x else { x with actions := x.actions ++ [a] }

theorem Frame.mem_actions_request (x : Frame) (a : FrameAction) : a ∈ (x.request a).actions := by
  rw [Frame.request, apply_ite Frame.actions]
  exact mem_append_unless_contains x.actions a

@[simp] theorem Frame.group_request (x : Frame) (a : FrameAction) (k : Nat) : (x.request a).group k = x.group k := by
  unfold Frame.request
  split <;> rfl

theorem maskFrames_two_pow : ∀ f < 20, maskFrames (BitVec.ofNat 20 (2 ^ f)) = [f] := by decide

theorem State.requestAction_two_pow (s : State) {f : Nat} (hf : frameOk f = true) (a : FrameAction) :
    s.requestAction (BitVec.ofNat 20 (2 ^ f)) a = s.modFrame f fun x => x.request a := by
  rw [State.requestAction, maskFrames_two_pow f (of_decide_eq_true hf)]
  rfl

/-! ## A rod that fails (R12, R425) -/

/-- The group in which the physical rod `p`, at a logical position, has failed. -/
def Group.fail (g : Group) (p pos : Nat) : Group := { g with
  failed := if g.failed.contains p then g.failed else g.failed ++ [p],
  due := if g.due.contains pos then g.due else g.due ++ [pos],
  missed := Sparse.write 0 g.missed pos 0 }

theorem RodId.ok_iff {r : RodId} : r.ok = true ↔ frameOk r.frame = true ∧ r.group < 15 ∧ r.pos < 125 := by
  simp [RodId.ok, and_assoc]

theorem RodId.physOk_of_ok {r : RodId} (h : r.ok = true) {q : Nat} (hq : q < 128) : physOk r.frame r.group q = true := by
  obtain ⟨hframe, hgroup, -⟩ := RodId.ok_iff.mp h
  simp [physOk, hframe, hgroup, hq]

section Failure
variable {s : State} {r : RodId}

theorem State.failRod_none (hphys : ((s.frame r.frame).group r.group).phys r.pos = none) : s.failRod r = s := by
  rw [State.failRod, hphys]

/-- No step uses the rod, so none is abandoned. -/
theorem State.abandonRod_idle (hidle : ∀ f ∈ s.firings, f.step = none) : s.abandonRod r = s := by
  have hnone : s.firings.find? (fun f => f.img.rods.contains r && f.step.isSome) = none :=
    List.find?_eq_none.mpr fun f hf => by simp [hidle f hf]
  rw [State.abandonRod, hnone]

variable {p : Nat} (hr : r.ok = true) (hphys : ((s.frame r.frame).group r.group).phys r.pos = some p)
include hr hphys

theorem State.failRod_some : s.failRod r =
    (s.modGroup r.frame r.group fun g => g.fail p r.pos).modFrame r.frame fun x => x.request .substitute := by
  rw [State.failRod, hphys]
  exact State.requestAction_two_pow _ (RodId.ok_iff.mp hr).1 _

/-- What a failed rod leaves: the rod and its position recorded, the map and the spares as they were, the substitution asked for. -/
theorem State.failRod_effect :
    let g := (s.frame r.frame).group r.group
    let t := s.failRod r
    let h := (t.frame r.frame).group r.group
    p ∈ h.failed ∧ r.pos ∈ h.due ∧ h.map = g.map ∧ h.spares = g.spares ∧
      FrameAction.substitute ∈ (t.frame r.frame).actions ∧ t.firings = s.firings ∧ t.mem = s.mem ∧ t.beads = s.beads := by
  intro g t h
  have ht : t = _ := State.failRod_some hr hphys
  have hh : h = g.fail p r.pos := by simp [h, g, ht]
  have hasked : FrameAction.substitute ∈ (t.frame r.frame).actions := by
    rw [ht, State.modFrame_eq, State.frame_setFrame_same]
    exact Frame.mem_actions_request _ _
  rw [hh]
  refine ⟨mem_append_unless_contains _ _, mem_append_unless_contains _ _, rfl, rfl, hasked, ?_⟩
  rw [ht]
  exact ⟨rfl, rfl, rfl⟩

end Failure

theorem State.kilnActs_iff {s : State} {f : Nat} :
    s.kilnActs f = true ↔ s.up = true ∧ (s.frame f).fenced = false ∧ (s.frame f).kiln.absent = false := by
  simp [State.kilnActs, and_assoc]

section Acting
variable {s : State} {r : RodId} (hr : r.ok = true) (hacts : s.kilnActs r.frame = true)
include hr hacts

/-- ROD_FAIL where the kiln acts. -/
theorem exec_rodFail (cause : RodCause) : exec (.rodFail r cause) s = .next (
    if cause = .corrected then s.countRodCe r.frame
    else (s.failRod r).when (decide (cause = .memory ∨ cause = .liveness)) fun t => t.abandonRod r) := by
  obtain ⟨hup, hfenced, -⟩ := State.kilnActs_iff.mp hacts
  show execRodFail r cause s = _
  simp only [execRodFail, within, hr, hup, hfenced, Bool.not_false, Bool.and_self, State.when_true]

/-- A corrected error is counted for the partition of the frame, if it has one (R430). -/
theorem rodFail_corrected_effect : Runs (.rodFail r .corrected) s fun t =>
    { t with parts := s.parts } = s ∧ ∀ n < 4, t.part n = if s.frameOwner r.frame = some n then
      { s.part n with rodCe := inc32 (s.part n).rodCe } else s.part n := by
  refine ⟨_, exec_rodFail hr hacts .corrected, ?_⟩
  rw [if_pos rfl, State.countRodCe]
  cases howner : s.frameOwner r.frame with
  | none => exact ⟨rfl, fun n _ => rfl⟩
  | some m =>
    obtain ⟨hrest, hparts⟩ := OnlyPart.setPart s m { s.part m with rodCe := inc32 (s.part m).rodCe }
    refine ⟨hrest, fun n _ => ?_⟩
    by_cases hn : m = n
    · subst hn
      simp
    · simpa [hn] using hparts n (Ne.symm hn)

/-! ## LIVENESS_PROBE (R425) -/

variable {p : Nat} (hphys : ((s.frame r.frame).group r.group).phys r.pos = some p)
  (hdue : ((s.frame r.frame).group r.group).due.contains r.pos = false)
include hphys hdue

/-- A probe counts the misses in a row, and the third fails the rod. -/
theorem exec_livenessProbe {answered : Bool} {n : Nat}
    (hn : (if answered then 0 else Sparse.read 0 ((s.frame r.frame).group r.group).missed r.pos + 1) = n) :
    exec (.livenessProbe r answered) s = .next (
      if n < 3 then s.modGroup r.frame r.group fun g => { g with missed := Sparse.write 0 g.missed r.pos n }
      else (s.failRod r).abandonRod r) := by
  subst hn
  show execLivenessProbe r answered s = _
  simp only [execLivenessProbe, within, hr, hacts, hphys, hdue, State.when_true, Option.isNone_some, Bool.false_eq_true, or_self,
    if_false]

theorem livenessProbe_counts {answered : Bool} {n : Nat}
    (hn : (if answered then 0 else Sparse.read 0 ((s.frame r.frame).group r.group).missed r.pos + 1) = n) (hfew : n < 3) :
    Runs (.livenessProbe r answered) s fun t => OnlyFrame r.frame s t ∧
      Sparse.read 0 ((t.frame r.frame).group r.group).missed r.pos = n := by
  refine ⟨_, exec_livenessProbe hr hacts hphys hdue hn, ?_⟩
  rw [if_pos hfew]
  exact ⟨OnlyFrame.modGroup s _ _ _, by simp⟩

theorem livenessProbe_fails (hmissed : 2 ≤ Sparse.read 0 ((s.frame r.frame).group r.group).missed r.pos)
    (hidle : ∀ f ∈ s.firings, f.step = none) : Runs (.livenessProbe r false) s fun t =>
      p ∈ ((t.frame r.frame).group r.group).failed ∧ FrameAction.substitute ∈ (t.frame r.frame).actions := by
  obtain ⟨hfailed, -, -, -, hasked, hfirings, -⟩ := State.failRod_effect hr hphys
  refine ⟨_, exec_livenessProbe hr hacts hphys hdue rfl, ?_⟩
  rw [if_neg (by simpa using hmissed), State.abandonRod_idle (by rwa [hfirings])]
  exact ⟨hfailed, hasked⟩

end Acting

/-! ## ROD_TEST_START (R429) -/

theorem OnlyPart.trans {n : Nat} {s t u : State} (h : OnlyPart n s t) (h' : OnlyPart n t u) : OnlyPart n s u := by
  obtain ⟨hrest, hparts⟩ := h
  obtain ⟨hrest', hparts'⟩ := h'
  refine ⟨?_, fun m hm => (hparts' m hm).trans (hparts m hm)⟩
  calc ({ u with parts := s.parts } : State) = { ({ u with parts := t.parts } : State) with parts := s.parts } := rfl
    _ = { t with parts := s.parts } := by rw [hrest']
    _ = s := hrest

/-- The partition shows the rod that the write names (R430). -/
def State.noteTestRod (s : State) (n : Nat) (w : Word64) : State :=
  s.modPart n fun x => { x with testRod := BitVec.ofNat 16 w.toNat }

section Start
variable {s : State} {r : RodId} {n p : Nat} {w : Word64} (hr : r.ok = true) (hstart : w.getLsbD 16 = true)
  (href : RodId.ofRef (w.toNat % 65536) = r) (hphys : ((s.frame r.frame).group r.group).phys r.pos = some p)
include hr hstart href hphys

/-- A START on a rod in place is refused, or the partition and the rod's group take the test up. -/
theorem State.writeRodTest_start : s.writeRodTest n w =
    if s.rodHeld r ∨ !inMask (s.part n).frames r.frame ∨ (s.part n).testState = 1 then
      (s.noteTestRod n w).modPart n fun x => { x with testRefused := true }
    else ((s.noteTestRod n w).modPart n fun x => { x with testState := 1, testOf := some (r.frame, r.group, p) }).modGroup
      r.frame r.group fun g => { g with testing := if g.testing.contains p then g.testing else g.testing ++ [p] } := by
  have hframes : ((s.noteTestRod n w).part n).frames = (s.part n).frames := by simp [State.noteTestRod]
  have hstate : ((s.noteTestRod n w).part n).testState = (s.part n).testState := by simp [State.noteTestRod]
  have hphys' : (((s.noteTestRod n w).frame r.frame).group r.group).phys r.pos = some p := hphys
  have hheld : (s.noteTestRod n w).rodHeld r = s.rodHeld r := rfl
  rw [← hframes, ← hstate, ← hheld]
  simp only [State.writeRodTest, href, hr, hstart, Bool.not_true, Bool.false_eq_true, if_false]
  rw [← State.noteTestRod, hphys']

variable (hport : portOk n = true) (hup : s.up = true) (hstate : (s.port n).state ≠ 0) (hpart : s.partExists n = true)
include hport hup hstate hpart

theorem rodTestStart_held (hheld : s.rodHeld r = true) : Runs (.rodTestStart n w) s fun t => OnlyPart n s t ∧
    (t.part n).testRefused = true ∧ (t.part n).testState = (s.part n).testState := by
  refine runs_of_when rfl hport (by simp [hup, hstate, hpart]) ?_
  rw [State.writeRodTest_start hr hstart href hphys, if_pos (.inl hheld)]
  exact ⟨(OnlyPart.setPart s n _).trans (OnlyPart.setPart (s.noteTestRod n w) n _), by simp, by simp [State.noteTestRod]⟩

theorem rodTestStart_free (hfree : s.rodHeld r = false) (hframe : inMask (s.part n).frames r.frame = true)
    (hdone : (s.part n).testState ≠ 1) : Runs (.rodTestStart n w) s fun t => (t.part n).testState = 1 ∧
      (t.part n).testOf = some (r.frame, r.group, p) ∧ p ∈ ((t.frame r.frame).group r.group).testing := by
  refine runs_of_when rfl hport (by simp [hup, hstate, hpart]) ?_
  rw [State.writeRodTest_start hr hstart href hphys, if_neg (by simp [hfree, hframe, hdone])]
  refine ⟨by simp [State.modGroup], by simp [State.modGroup], ?_⟩
  rw [State.group_modGroup]
  exact mem_append_unless_contains _ _

end Start

/-! ## SPARE_ROD_TEST (R428) -/

theorem spareRodTest_starts {s : State} {r : RodId} {q : Nat} (hr : r.ok = true) (hacts : s.kilnActs r.frame = true)
    (hq : q < 128) (hspare : ((s.frame r.frame).group r.group).spares.contains q = true)
    (hidle : ((s.frame r.frame).group r.group).testing.contains q = false) :
    Runs (.spareRodTest r.frame r.group q) s fun t => OnlyFrame r.frame s t ∧ (t.frame r.frame).group r.group =
      { (s.frame r.frame).group r.group with testing := ((s.frame r.frame).group r.group).testing ++ [q] } := by
  refine runs_of_when rfl (RodId.physOk_of_ok hr hq) hacts ⟨OnlyFrame.modGroup s _ _ _, ?_⟩
  rw [State.group_modGroup, if_pos ⟨hspare, by rw [hidle]; rfl⟩]

/-! ## ROD_TEST_DONE (R424, R428 to R430) -/

/-- A walk that changes each of some partitions by itself. -/
theorem State.part_forEach_modPart (g : Part → Part) {l : List Nat} (hl : l.Nodup) (s : State) (n : Nat) :
    (s.forEach l fun t k => t.modPart k g).part n = if n ∈ l then g (s.part n) else s.part n := by
  induction l generalizing s with
  | nil => simp
  | cons k l ih =>
    obtain ⟨hk, hl⟩ := List.nodup_cons.mp hl
    rw [State.forEach_cons, ih hl, State.modPart_eq]
    by_cases hn : k = n
    · subst hn
      simp [hk]
    · simp [s.part_setPart_ne _ hn, Ne.symm hn]

theorem State.frame_forEach_modPart (g : Part → Part) (s : State) (l : List Nat) (f : Nat) :
    (s.forEach l fun t k => t.modPart k g).frame f = s.frame f :=
  State.forEach_same (g := fun t k => t.modPart k g) (·.frame f) (fun _ _ => rfl) s l

/-- The partition with the result of the test of a physical rod, if it started that test. -/
def Part.endTest (x : Part) (f gi p : Nat) (pass : Bool) : Part :=
  if x.testState = 1 ∧ x.testOf = some (f, gi, p) then { x with testState := if pass then 2 else 3, testOf := Option.none } else x

/-- A spare that has been tested: it stays a spare, or is mapped out. -/
def Group.endSpareTest (g : Group) (q : Nat) (pass : Bool) : Group :=
  let h := { g with testing := g.testing.filter (· ≠ q) }
  if pass then h
  else { h with
    spares := h.spares.filter (· ≠ q), failed := if h.failed.contains q then h.failed else h.failed ++ [q] }

section Done
variable {s : State} {f gi q : Nat} {pass : Bool} (hout : ((s.frame f).group gi).posOf q = none)
include hout

theorem State.group_judgeRod_spare (hspare : ((s.frame f).group gi).spares.contains q = true) :
    ((s.judgeRod f gi q pass).frame f).group gi = ((s.frame f).group gi).endSpareTest q pass := by
  simp only [State.judgeRod, hout]
  cases pass with
  | true => simp only [if_true, State.group_modGroup, hspare, true_or, Group.endSpareTest]
  | false => simp only [Bool.false_eq_true, if_false, State.group_modGroup, Group.endSpareTest]

theorem State.parts_judgeRod : (s.judgeRod f gi q pass).parts = s.parts := by
  simp only [State.judgeRod, hout]
  cases pass <;> rfl

end Done

/-- The end of a spare's test: the spare is judged, and the partition that started the test shows its result. -/
theorem rodTestDone_effect {s : State} {r : RodId} {q n : Nat} (pass : Bool) (hr : r.ok = true)
    (hacts : s.kilnActs r.frame = true) (hq : q < 128) (hn : n < 4)
    (hspare : ((s.frame r.frame).group r.group).spares.contains q = true)
    (htesting : ((s.frame r.frame).group r.group).testing.contains q = true)
    (hout : ((s.frame r.frame).group r.group).posOf q = none) : Runs (.rodTestDone r.frame r.group q pass) s fun t =>
      t.part n = (s.part n).endTest r.frame r.group q pass ∧
        (t.frame r.frame).group r.group = ((s.frame r.frame).group r.group).endSpareTest q pass := by
  refine runs_of_when (g := fun s => (s.judgeRod r.frame r.group q pass).forEach (List.range 4) fun t k =>
    t.modPart k fun x => x.endTest r.frame r.group q pass) rfl (RodId.physOk_of_ok hr hq)
    (by rw [hacts, htesting]; rfl) ⟨?_, ?_⟩
  · rw [State.part_forEach_modPart _ List.nodup_range, if_pos (List.mem_range.mpr hn), State.part, State.parts_judgeRod hout,
      State.part]
  · rw [State.frame_forEach_modPart, State.group_judgeRod_spare hout hspare]

/-- Settles O46: a rod that fails is recorded in its group and asks for its substitution (`State.failRod_effect`); the walk over
the partitions that ends a test reaches each once (`State.part_forEach_modPart`). -/
theorem rodsFailAndAreTested : Obligations.RodsFailAndAreTested := by
  intro r s p hr hacts g
  refine ⟨fun hphys cause hcause => ?_, fun hphys hidle => ?_, rodFail_corrected_effect hr hacts, fun hphys => ?_,
    fun hphys hdue => ⟨livenessProbe_counts hr hacts hphys hdue rfl (by decide), fun hfew => ?_,
      livenessProbe_fails hr hacts hphys hdue⟩,
    fun n w hport hstate hpart hstart href hphys => ?_, fun q hq hspare hidle => spareRodTest_starts hr hacts hq hspare hidle,
    fun q n hq hn hspares htesting hout htest hof => ?_⟩
  · have hnotCorrected : cause ≠ .corrected := by rcases hcause with rfl | rfl <;> decide
    have hnoAbandon : decide (cause = .memory ∨ cause = .liveness) = false := by rcases hcause with rfl | rfl <;> rfl
    refine ⟨_, exec_rodFail hr hacts cause, ?_⟩
    rw [if_neg hnotCorrected, hnoAbandon, State.when_false]
    exact State.failRod_effect hr hphys
  · obtain ⟨hfailed, -, -, -, -, hfirings, -⟩ := State.failRod_effect hr hphys
    refine ⟨_, exec_rodFail hr hacts .memory, ?_⟩
    rw [if_neg (by decide), decide_eq_true (.inl rfl), State.when_true, State.abandonRod_idle (by rwa [hfirings])]
    exact ⟨hfailed, hfirings⟩
  · rw [exec_rodFail hr hacts, if_neg (by decide), State.failRod_none hphys]
    rfl
  · exact livenessProbe_counts hr hacts hphys hdue rfl (Nat.succ_lt_succ hfew)
  · obtain ⟨hup, -⟩ := State.kilnActs_iff.mp hacts
    exact ⟨rodTestStart_held hr hstart href hphys hport hup hstate hpart,
      rodTestStart_free hr hstart href hphys hport hup hstate hpart⟩
  · have hdone := fun pass => rodTestDone_effect pass hr hacts hq hn (by rw [hspares]; simp) (by rw [htesting]; simp) hout
    refine ⟨(hdone true).imp fun t ⟨hpart, hgroup⟩ => ?_, (hdone false).imp fun t ⟨hpart, hgroup⟩ => ?_⟩
    · rw [hpart, hgroup]
      simp [Part.endTest, htest, hof, Group.endSpareTest, hspares, htesting, g]
    · rw [hpart, hgroup]
      refine ⟨by simp [Part.endTest, htest, hof], by simp [Group.endSpareTest, hspares, g], ?_⟩
      exact mem_append_unless_contains _ _

end Sys2Proof.Machine
end

section
/-! SUPPORT. Gradient rules: the bins a rule sums, the decision on a result, one evaluation; and O33. -/

namespace Sys2Proof

/-- Writes at the keys of a list, each with the value of its key: those keys read their values, every other key as before. -/
theorem Sparse.read_foldl_write {α : Type} [DecidableEq α] (d : α) (v : Nat → α) (l : List Nat) (m : Sparse α) (j : Nat) :
    Sparse.read d (l.foldl (fun m k => Sparse.write d m k (v k)) m) j = if j ∈ l then v j else Sparse.read d m j := by
  induction l generalizing m with
  | nil => simp
  | cons k l ih =>
    rw [List.foldl_cons, ih]
    by_cases hjk : k = j
    · simp [hjk]
    · simp [Sparse.read_write_ne d m _ hjk, Ne.symm hjk]

namespace Machine

theorem read_addBins (a b : Sparse Nat) {k : Nat} (hk : k < 32) :
    Sparse.read 0 (addBins a b) k = Sparse.read 0 a k + Sparse.read 0 b k := by
  rw [addBins, Sparse.read_foldl_write, if_pos (List.mem_range.mpr hk)]

/-- The elements in bins 1 to 31, which R201 compares with MIN_COUNT. -/
def binTotal (bin : Nat → Nat) : Nat := ((List.range 31).map fun i => bin (i + 1)).sum

theorem binTotal_eq_foldl (bin : Nat → Nat) : binTotal bin = (List.range 31).foldl (fun n i => n + bin (i + 1)) 0 := by
  rw [binTotal, List.sum_eq_foldl, List.foldl_map]

theorem evaluateRule_of_high (r : List Word64) {bin : Nat → Nat} (h : 0 < bin 30 + bin 31) : evaluateRule r bin = 5 :=
  if_pos h

namespace RuleState

/-! ## The decision on a result (R202) -/

section
variable (y : RuleState) (hold result : Nat)

/-- The results that the decision looks at: the last `hold`, the new one among them. -/
def lastResults : List Nat := (y.narrow ++ [result]).drop (y.narrow.length + 1 - hold)

/-- A decision changes the results kept and the format to come, nothing else. -/
theorem settle_keeps : (y.settle hold result).fmt = y.fmt ∧ (y.settle hold result).sums = y.sums ∧
    (y.settle hold result).read = y.read := by
  rw [settle]
  split
  · exact ⟨rfl, rfl, rfl⟩
  · split <;> exact ⟨rfl, rfl, rfl⟩

theorem settle_next : (y.settle hold result).next = if y.fmt < result then result + 1
    else if (y.lastResults hold result).length = hold ∧ (y.lastResults hold result).all (fun x => decide (x < y.fmt)) then
      widestOf (y.lastResults hold result) + 1
    else y.next := by
  simp only [settle, apply_ite RuleState.next]
  rfl

end

variable {y : RuleState} {hold result : Nat}

theorem lastResults_one : y.lastResults 1 result = [result] := by simp [lastResults]

theorem mem_lastResults (hhold : 1 ≤ hold) : result ∈ y.lastResults hold result := by
  rw [lastResults, List.drop_append_of_le_length (by omega)]
  exact List.mem_append_right _ (List.mem_singleton_self _)

theorem settle_next_wider (h : y.fmt < result) : (y.settle hold result).next = result + 1 := by
  rw [settle_next, if_pos h]

/-- With NARROW_HOLD 1 a narrower result is the only one looked at, and so the widest of them. -/
theorem settle_next_narrower (hone : hold = 1) (h : result < y.fmt) : (y.settle hold result).next = result + 1 := by
  rw [hone, settle_next, if_neg (by omega), lastResults_one, if_pos (by simp [h])]
  simp [widestOf]

/-- A result equal to the format in force is among the last ones and not narrower, so it decides nothing. -/
theorem settle_next_same (h : result = y.fmt) (hhold : 1 ≤ hold) : (y.settle hold result).next = y.next := by
  have hnotAll : ¬ (y.lastResults hold result).all (fun x => decide (x < y.fmt)) := fun hall =>
    absurd (of_decide_eq_true (List.all_eq_true.mp hall result (mem_lastResults hhold))) (by omega)
  rw [settle_next, if_neg (by omega), if_neg fun hboth => hnotAll hboth.2]

/-! ## One evaluation (R201) -/

/-- The rule as it decides: its counts are taken and its sums start again. -/
def restarted (y : RuleState) : RuleState := { y with read := none, sums := [] }

section
variable {y : RuleState} {bins : Sparse Nat} (hread : y.read = some bins) (r : List Word64)
include hread

theorem evaluate_few (h : binTotal (fun b => Sparse.read 0 (addBins y.sums bins) b) < ruleField r 0x10 8) :
    y.evaluate r = { y with read := none, sums := addBins y.sums bins } := by
  rw [binTotal_eq_foldl] at h
  simp only [evaluate, hread, if_pos h]

theorem evaluate_enough (h : ruleField r 0x10 8 ≤ binTotal (fun b => Sparse.read 0 (addBins y.sums bins) b)) :
    y.evaluate r = y.restarted.settle (ruleField r 0x18 1)
      (evaluateRule r fun b => Sparse.read 0 (addBins y.sums bins) b) := by
  rw [binTotal_eq_foldl] at h
  simp only [evaluate, hread, if_neg (Nat.not_lt.mpr h), restarted]

/-- An evaluation uses up the counts read and leaves the format in force. -/
theorem evaluate_keeps : (y.evaluate r).read = none ∧ (y.evaluate r).fmt = y.fmt := by
  rcases Nat.lt_or_ge (binTotal fun b => Sparse.read 0 (addBins y.sums bins) b) (ruleField r 0x10 8) with hfew | henough
  · rw [evaluate_few hread r hfew]
    exact ⟨rfl, rfl⟩
  · rw [evaluate_enough hread r henough]
    obtain ⟨hfmt, -, hnone⟩ := settle_keeps y.restarted (ruleField r 0x18 1)
      (evaluateRule r fun b => Sparse.read 0 (addBins y.sums bins) b)
    exact ⟨hnone, hfmt⟩

end

end RuleState

/-! ## GRAD_RULE_EVAL -/

theorem State.firing_modFiring {s : State} {h : Nat} {g : Firing → Firing} (hg : ∀ f, (g f).handle = f.handle) :
    (s.modFiring h g).firing h = (s.firing h).map g := by
  rw [State.firing, State.modFiring, List.find?_map, State.firing]
  have hsame : ((fun f : Firing => decide (f.handle = h)) ∘ fun f => if f.handle = h then g f else f) =
      fun f => decide (f.handle = h) := by
    funext f
    by_cases hf : f.handle = h <;> simp [hf, hg]
  rw [hsame]
  cases hfind : s.firings.find? fun f => decide (f.handle = h) with
  | none => rfl
  | some f =>
    have hf : f.handle = h := by simpa using List.find?_some hfind
    simp [hf]

/-- A firing with rule `k`, which the words `r` give, evaluated. -/
def Firing.evaluated (f : Firing) (k : Nat) (r : List Word64) : Firing :=
  { f with rules := f.rules.modify k fun x => x.evaluate r }

theorem Firing.rules_evaluated {f : Firing} {k : Nat} {y : RuleState} (hy : f.rules[k]? = some y) (r : List Word64) :
    (f.evaluated k r).rules[k]? = some (y.evaluate r) := by
  rw [Firing.evaluated, List.getElem?_modify_eq, hy]
  rfl

/-- GRAD_RULE_EVAL changes one firing, and of it the rule named. -/
theorem gradRuleEval_effect {s : State} {h k : Nat} {f : Firing} {r : List Word64} (hup : s.up = true)
    (hmaster : s.hasMaster = true) (hf : s.firing h = some f) (hr : f.img.rules[k]? = some r) :
    Runs (.gradRuleEval h k) s fun t => { t with firings := s.firings } = s ∧ t.firing h = some (f.evaluated k r) := by
  refine runs_of_when rfl rfl (by rw [hup, hmaster]; rfl) ⟨rfl, ?_⟩
  rw [State.firing_modFiring fun f => by split <;> rfl, hf, Option.map_some, hr]
  rfl

/-- Settles O33: the command evaluates one rule (`gradRuleEval_effect`), which decides by its result once its bins hold MIN_COUNT
elements (`RuleState.evaluate_enough`, `RuleState.settle_next`). -/
theorem gradRuleDecides : Obligations.GradRuleDecides := by
  intro h k s f r y read hup hmaster hf hr hy hread bin n result hold
  refine (gradRuleEval_effect hup hmaster hf hr).imp fun t ⟨hrest, hfiring⟩ => ⟨hrest, ?_⟩
  obtain ⟨hnone, hfmt⟩ := RuleState.evaluate_keeps hread r
  refine ⟨_, _, hfiring, rfl, Firing.rules_evaluated hy r, hnone, hfmt, fun hfew => ?_, fun henough => ?_⟩
  · rw [RuleState.evaluate_few hread r hfew]
    exact ⟨fun _ hb => read_addBins y.sums read hb, rfl, rfl⟩
  · rw [RuleState.evaluate_enough hread r henough]
    obtain ⟨-, hsums, -⟩ := RuleState.settle_keeps y.restarted hold result
    exact ⟨hsums, evaluateRule_of_high r, RuleState.settle_next_wider (y := y.restarted),
      RuleState.settle_next_narrower (y := y.restarted), RuleState.settle_next_same (y := y.restarted)⟩

end Machine
end Sys2Proof
end
